-- ==== Sys2Proof/Word.lean ====
section
/-! DEFINITION. The word types of RP-1 and the three operand widths (spec/00_scope.md R9, R10). -/

namespace Sys2Proof

/-- One byte of the address space or of the instruction stream. -/
abbrev Byte := BitVec 8

/-- A 24-bit address (`ADDR_BITS` = 24, R9, R71); its addition is the spec's sum modulo `2^24`. -/
abbrev Addr := BitVec 24

/-- The carrier of an operand value: a value of width 8 or 16 is held zero-extended in 32 bits. -/
abbrev Val := BitVec 32

/-- The operand widths 8, 16 and 32 (R9), written `.B`, `.W`, `.L` in mnemonics (R103). -/
inductive Width where
  | byte
  | word
  | long
deriving DecidableEq, Repr

/-- The number of bits of a width. -/
def Width.bits : Width → Nat
  | .byte => 8
  | .word => 16
  | .long => 32

/-- The number of bytes of a width. -/
def Width.bytes : Width → Nat
  | .byte => 1
  | .word => 2
  | .long => 4

/-- The two decimal operations, as the first argument of `BcdNonStd` (44_arithmetic.md R274). -/
inductive DecimalOp where
  | dadd
  | dsub
deriving DecidableEq, Repr

end Sys2Proof
end

