-- ==== Sys2Proof/Config.lean ====
section
/-! DEFINITION. What the spec leaves to the platform or leaves OPEN: the content of memory nothing has written
(93_implementation_defined.md item 28) and the parameter `BcdNonStd` (44_arithmetic.md R274). -/

namespace Sys2Proof.Config

/-- What a byte of memory that nothing has written reads as. DESIGN CHOICE, unsafe (notes/assumptions/1.md): the spec
gives memory no content before the harness loads it; its vectors take 0 for bytes they do not name
(95_test_vectors.md, conventions). -/
def unlistedByte : Byte := 0x00#8

/-- `BcdNonStd(op, W, a, b) -> (r, c)` of R274: the result and the carry of decimal arithmetic on operands with a digit
above 9. The spec leaves it OPEN, so it is a FREE VALUE (notes/assumptions/7.md): opaque, no proof can know it. -/
opaque bcdNonStd (op : DecimalOp) (w : Width) (a b : Val) : Val × Bool

end Sys2Proof.Config
end

