-- ==== Sys2Proof/Syntax.lean ====
section
/-! DEFINITION. The instructions of RP-1 as syntax: registers an operand can name, the sixteen addressing modes with
their extension bytes (41_resolver.md R173), the sixteen conditions (42_flags_conditions.md R213), and one constructor of
`Instr` for each row of spec/opcode_table.json. -/

namespace Sys2Proof

/-- The data registers R0 to R3 as the register modes 0 to 3 name them (R173; the width picks the view). -/
inductive DReg where
  | r0
  | r1
  | r2
  | r3
deriving DecidableEq, Repr

/-- The address registers A0 and A1. -/
inductive AReg where
  | a0
  | a1
deriving DecidableEq, Repr

/-- An operand as the instruction stream gives it: one of the sixteen mode codes of R173 with the extension bytes that
belong to it (R178). -/
inductive Opnd where
  /-- Modes 0 to 3: a data register. -/
  | dreg (r : DReg)
  /-- Modes 4 and 5: an address register. -/
  | areg (a : AReg)
  /-- Modes 6 and 7: `[An]`. -/
  | ind (a : AReg)
  /-- Modes 8 and 9: `dsp:8[An]`. -/
  | dsp8 (a : AReg) (d : BitVec 8)
  /-- Modes 10 and 11: `dsp:16[An]`. -/
  | dsp16 (a : AReg) (d : BitVec 16)
  /-- Modes 12 and 13: `dsp:24[An]`. -/
  | dsp24 (a : AReg) (d : BitVec 24)
  /-- Mode 14: `abs:16`. -/
  | abs16 (d : BitVec 16)
  /-- Mode 15: `abs:24`. -/
  | abs24 (d : BitVec 24)
deriving DecidableEq, Repr

/-- The number of an address register inside a pair of mode codes (R173: even codes A0, odd codes A1). -/
def AReg.bit : AReg → BitVec 4
  | .a0 => 0#4
  | .a1 => 1#4

/-- The number of a data register, its mode code (R173). -/
def DReg.code : DReg → BitVec 4
  | .r0 => 0#4
  | .r1 => 1#4
  | .r2 => 2#4
  | .r3 => 3#4

/-- The 4-bit mode code of an operand (R173). -/
def Opnd.mode : Opnd → BitVec 4
  | .dreg r => r.code
  | .areg a => 4#4 + a.bit
  | .ind a => 6#4 + a.bit
  | .dsp8 a _ => 8#4 + a.bit
  | .dsp16 a _ => 10#4 + a.bit
  | .dsp24 a _ => 12#4 + a.bit
  | .abs16 _ => 14#4
  | .abs24 _ => 15#4

/-- `extra_bytes`: the extension bytes an operand takes from the instruction stream (R173, 30_encoding.md R125). -/
def Opnd.extLen : Opnd → Nat
  | .dreg _ => 0
  | .areg _ => 0
  | .ind _ => 0
  | .dsp8 _ _ => 1
  | .dsp16 _ _ => 2
  | .dsp24 _ _ => 3
  | .abs16 _ => 2
  | .abs24 _ => 3

/-- The sixteen conditions (R213), in the order of their codes. -/
inductive Cnd where
  | geu
  | gtu
  | eq
  | n
  | le
  | o
  | ge
  | t
  | ltu
  | leu
  | ne
  | pz
  | gt
  | no
  | lt
  | f
deriving DecidableEq, Repr

/-- The condition codes of R213. -/
def Cnd.code : Cnd → BitVec 4
  | .geu => 0#4
  | .gtu => 1#4
  | .eq => 2#4
  | .n => 3#4
  | .le => 4#4
  | .o => 5#4
  | .ge => 6#4
  | .t => 7#4
  | .ltu => 8#4
  | .leu => 9#4
  | .ne => 10#4
  | .pz => 11#4
  | .gt => 12#4
  | .no => 13#4
  | .lt => 14#4
  | .f => 15#4

/-- The instructions of RP-1: one constructor for each row of spec/opcode_table.json. `src` and `dst` are operands,
`imm` an immediate of the nominal size, `n` the embedded count field (count - 1), `bit` a bit number, `c` a condition. -/
inductive Instr where
  /-- `NOP`: format N, `byte0` = 0x01 (R363). -/
  | nop
  /-- `MOV.B`: format G2, `byte0` = 0x10 (R233). -/
  | movB (src : Opnd) (dst : Opnd)
  /-- `MOV.W`: format G2, `byte0` = 0x11 (R233). -/
  | movW (src : Opnd) (dst : Opnd)
  /-- `MOV.L`: format G2, `byte0` = 0x12 (R233). -/
  | movL (src : Opnd) (dst : Opnd)
  /-- `ADD.B`: format G2, `byte0` = 0x14 (R261). -/
  | addB (src : Opnd) (dst : Opnd)
  /-- `ADD.W`: format G2, `byte0` = 0x15 (R261). -/
  | addW (src : Opnd) (dst : Opnd)
  /-- `ADD.L`: format G2, `byte0` = 0x16 (R261). -/
  | addL (src : Opnd) (dst : Opnd)
  /-- `ADC.B`: format G2, `byte0` = 0x18 (R263). -/
  | adcB (src : Opnd) (dst : Opnd)
  /-- `ADC.W`: format G2, `byte0` = 0x19 (R263). -/
  | adcW (src : Opnd) (dst : Opnd)
  /-- `ADC.L`: format G2, `byte0` = 0x1A (R263). -/
  | adcL (src : Opnd) (dst : Opnd)
  /-- `SUB.B`: format G2, `byte0` = 0x1C (R264). -/
  | subB (src : Opnd) (dst : Opnd)
  /-- `SUB.W`: format G2, `byte0` = 0x1D (R264). -/
  | subW (src : Opnd) (dst : Opnd)
  /-- `SUB.L`: format G2, `byte0` = 0x1E (R264). -/
  | subL (src : Opnd) (dst : Opnd)
  /-- `SBB.B`: format G2, `byte0` = 0x20 (R266). -/
  | sbbB (src : Opnd) (dst : Opnd)
  /-- `SBB.W`: format G2, `byte0` = 0x21 (R266). -/
  | sbbW (src : Opnd) (dst : Opnd)
  /-- `SBB.L`: format G2, `byte0` = 0x22 (R266). -/
  | sbbL (src : Opnd) (dst : Opnd)
  /-- `CMP.B`: format G2, `byte0` = 0x24 (R267). -/
  | cmpB (src : Opnd) (dst : Opnd)
  /-- `CMP.W`: format G2, `byte0` = 0x25 (R267). -/
  | cmpW (src : Opnd) (dst : Opnd)
  /-- `CMP.L`: format G2, `byte0` = 0x26 (R267). -/
  | cmpL (src : Opnd) (dst : Opnd)
  /-- `AND.B`: format G2, `byte0` = 0x28 (R291). -/
  | andB (src : Opnd) (dst : Opnd)
  /-- `AND.W`: format G2, `byte0` = 0x29 (R291). -/
  | andW (src : Opnd) (dst : Opnd)
  /-- `AND.L`: format G2, `byte0` = 0x2A (R291). -/
  | andL (src : Opnd) (dst : Opnd)
  /-- `OR.B`: format G2, `byte0` = 0x2C (R293). -/
  | orB (src : Opnd) (dst : Opnd)
  /-- `OR.W`: format G2, `byte0` = 0x2D (R293). -/
  | orW (src : Opnd) (dst : Opnd)
  /-- `OR.L`: format G2, `byte0` = 0x2E (R293). -/
  | orL (src : Opnd) (dst : Opnd)
  /-- `XOR.B`: format G2, `byte0` = 0x30 (R295). -/
  | xorB (src : Opnd) (dst : Opnd)
  /-- `XOR.W`: format G2, `byte0` = 0x31 (R295). -/
  | xorW (src : Opnd) (dst : Opnd)
  /-- `XOR.L`: format G2, `byte0` = 0x32 (R295). -/
  | xorL (src : Opnd) (dst : Opnd)
  /-- `TST.B`: format G2, `byte0` = 0x34 (R297). -/
  | tstB (src : Opnd) (dst : Opnd)
  /-- `TST.W`: format G2, `byte0` = 0x35 (R297). -/
  | tstW (src : Opnd) (dst : Opnd)
  /-- `TST.L`: format G2, `byte0` = 0x36 (R297). -/
  | tstL (src : Opnd) (dst : Opnd)
  /-- `DADD.B`: format G2, `byte0` = 0x38 (R271). -/
  | daddB (src : Opnd) (dst : Opnd)
  /-- `DADD.W`: format G2, `byte0` = 0x39 (R271). -/
  | daddW (src : Opnd) (dst : Opnd)
  /-- `DSUB.B`: format G2, `byte0` = 0x3C (R272). -/
  | dsubB (src : Opnd) (dst : Opnd)
  /-- `DSUB.W`: format G2, `byte0` = 0x3D (R272). -/
  | dsubW (src : Opnd) (dst : Opnd)
  /-- `EXTS.B`: format G2, `byte0` = 0x40 (R239). -/
  | extsB (src : Opnd) (dst : Opnd)
  /-- `EXTS.W`: format G2, `byte0` = 0x41 (R239). -/
  | extsW (src : Opnd) (dst : Opnd)
  /-- `EXTZ.B`: format G2, `byte0` = 0x44 (R240). -/
  | extzB (src : Opnd) (dst : Opnd)
  /-- `EXTZ.W`: format G2, `byte0` = 0x45 (R240). -/
  | extzW (src : Opnd) (dst : Opnd)
  /-- `LEA`: format G2, `byte0` = 0x48 (R235). -/
  | lea (src : Opnd) (dst : Opnd)
  /-- `MOV.B #imm`: format I, `byte0` = 0x50 (R234). -/
  | movBImm (dst : Opnd) (imm : BitVec 8)
  /-- `MOV.W #imm`: format I, `byte0` = 0x51 (R234). -/
  | movWImm (dst : Opnd) (imm : BitVec 16)
  /-- `MOV.L #imm`: format I, `byte0` = 0x52 (R234). -/
  | movLImm (dst : Opnd) (imm : BitVec 32)
  /-- `ADD.B #imm`: format I, `byte0` = 0x54 (R262). -/
  | addBImm (dst : Opnd) (imm : BitVec 8)
  /-- `ADD.W #imm`: format I, `byte0` = 0x55 (R262). -/
  | addWImm (dst : Opnd) (imm : BitVec 16)
  /-- `ADD.L #imm`: format I, `byte0` = 0x56 (R262). -/
  | addLImm (dst : Opnd) (imm : BitVec 32)
  /-- `SUB.B #imm`: format I, `byte0` = 0x58 (R265). -/
  | subBImm (dst : Opnd) (imm : BitVec 8)
  /-- `SUB.W #imm`: format I, `byte0` = 0x59 (R265). -/
  | subWImm (dst : Opnd) (imm : BitVec 16)
  /-- `SUB.L #imm`: format I, `byte0` = 0x5A (R265). -/
  | subLImm (dst : Opnd) (imm : BitVec 32)
  /-- `CMP.B #imm`: format I, `byte0` = 0x5C (R268). -/
  | cmpBImm (dst : Opnd) (imm : BitVec 8)
  /-- `CMP.W #imm`: format I, `byte0` = 0x5D (R268). -/
  | cmpWImm (dst : Opnd) (imm : BitVec 16)
  /-- `CMP.L #imm`: format I, `byte0` = 0x5E (R268). -/
  | cmpLImm (dst : Opnd) (imm : BitVec 32)
  /-- `AND.B #imm`: format I, `byte0` = 0x60 (R292). -/
  | andBImm (dst : Opnd) (imm : BitVec 8)
  /-- `AND.W #imm`: format I, `byte0` = 0x61 (R292). -/
  | andWImm (dst : Opnd) (imm : BitVec 16)
  /-- `AND.L #imm`: format I, `byte0` = 0x62 (R292). -/
  | andLImm (dst : Opnd) (imm : BitVec 32)
  /-- `OR.B #imm`: format I, `byte0` = 0x64 (R294). -/
  | orBImm (dst : Opnd) (imm : BitVec 8)
  /-- `OR.W #imm`: format I, `byte0` = 0x65 (R294). -/
  | orWImm (dst : Opnd) (imm : BitVec 16)
  /-- `OR.L #imm`: format I, `byte0` = 0x66 (R294). -/
  | orLImm (dst : Opnd) (imm : BitVec 32)
  /-- `XOR.B #imm`: format I, `byte0` = 0x68 (R296). -/
  | xorBImm (dst : Opnd) (imm : BitVec 8)
  /-- `XOR.W #imm`: format I, `byte0` = 0x69 (R296). -/
  | xorWImm (dst : Opnd) (imm : BitVec 16)
  /-- `XOR.L #imm`: format I, `byte0` = 0x6A (R296). -/
  | xorLImm (dst : Opnd) (imm : BitVec 32)
  /-- `TST.B #imm`: format I, `byte0` = 0x6C (R298). -/
  | tstBImm (dst : Opnd) (imm : BitVec 8)
  /-- `TST.W #imm`: format I, `byte0` = 0x6D (R298). -/
  | tstWImm (dst : Opnd) (imm : BitVec 16)
  /-- `TST.L #imm`: format I, `byte0` = 0x6E (R298). -/
  | tstLImm (dst : Opnd) (imm : BitVec 32)
  /-- `ADDQ.B`: format Q, `byte0` = 0x70 (R269). -/
  | addqB (imm : BitVec 4) (dst : Opnd)
  /-- `ADDQ.W`: format Q, `byte0` = 0x71 (R269). -/
  | addqW (imm : BitVec 4) (dst : Opnd)
  /-- `ADDQ.L`: format Q, `byte0` = 0x72 (R269). -/
  | addqL (imm : BitVec 4) (dst : Opnd)
  /-- `SHL.B`: format Q, `byte0` = 0x74 (R301). -/
  | shlB (n : BitVec 4) (dst : Opnd)
  /-- `SHL.W`: format Q, `byte0` = 0x75 (R301). -/
  | shlW (n : BitVec 4) (dst : Opnd)
  /-- `SHL.L`: format Q, `byte0` = 0x76 (R301). -/
  | shlL (n : BitVec 4) (dst : Opnd)
  /-- `SHR.B`: format Q, `byte0` = 0x78 (R302). -/
  | shrB (n : BitVec 4) (dst : Opnd)
  /-- `SHR.W`: format Q, `byte0` = 0x79 (R302). -/
  | shrW (n : BitVec 4) (dst : Opnd)
  /-- `SHR.L`: format Q, `byte0` = 0x7A (R302). -/
  | shrL (n : BitVec 4) (dst : Opnd)
  /-- `SAR.B`: format Q, `byte0` = 0x7C (R303). -/
  | sarB (n : BitVec 4) (dst : Opnd)
  /-- `SAR.W`: format Q, `byte0` = 0x7D (R303). -/
  | sarW (n : BitVec 4) (dst : Opnd)
  /-- `SAR.L`: format Q, `byte0` = 0x7E (R303). -/
  | sarL (n : BitVec 4) (dst : Opnd)
  /-- `ROL.B`: format Q, `byte0` = 0x80 (R304). -/
  | rolB (n : BitVec 4) (dst : Opnd)
  /-- `ROL.W`: format Q, `byte0` = 0x81 (R304). -/
  | rolW (n : BitVec 4) (dst : Opnd)
  /-- `ROL.L`: format Q, `byte0` = 0x82 (R304). -/
  | rolL (n : BitVec 4) (dst : Opnd)
  /-- `ROR.B`: format Q, `byte0` = 0x84 (R305). -/
  | rorB (n : BitVec 4) (dst : Opnd)
  /-- `ROR.W`: format Q, `byte0` = 0x85 (R305). -/
  | rorW (n : BitVec 4) (dst : Opnd)
  /-- `ROR.L`: format Q, `byte0` = 0x86 (R305). -/
  | rorL (n : BitVec 4) (dst : Opnd)
  /-- `NOT.B`: format G1, `byte0` = 0x88 (R299). -/
  | notB (dst : Opnd)
  /-- `NOT.W`: format G1, `byte0` = 0x89 (R299). -/
  | notW (dst : Opnd)
  /-- `NOT.L`: format G1, `byte0` = 0x8A (R299). -/
  | notL (dst : Opnd)
  /-- `NEG.B`: format G1, `byte0` = 0x8C (R270). -/
  | negB (dst : Opnd)
  /-- `NEG.W`: format G1, `byte0` = 0x8D (R270). -/
  | negW (dst : Opnd)
  /-- `NEG.L`: format G1, `byte0` = 0x8E (R270). -/
  | negL (dst : Opnd)
  /-- `PUSH.B`: format G1, `byte0` = 0x90 (R236). -/
  | pushB (src : Opnd)
  /-- `PUSH.W`: format G1, `byte0` = 0x91 (R236). -/
  | pushW (src : Opnd)
  /-- `PUSH.L`: format G1, `byte0` = 0x92 (R236). -/
  | pushL (src : Opnd)
  /-- `POP.B`: format G1, `byte0` = 0x94 (R237). -/
  | popB (dst : Opnd)
  /-- `POP.W`: format G1, `byte0` = 0x95 (R237). -/
  | popW (dst : Opnd)
  /-- `POP.L`: format G1, `byte0` = 0x96 (R237). -/
  | popL (dst : Opnd)
  /-- `PUSHA`: format P, `byte0` = 0x98 (R238). -/
  | pusha (src : Opnd)
  /-- `JMPI`: format P, `byte0` = 0x99 (R354). -/
  | jmpi (src : Opnd)
  /-- `JSRI`: format P, `byte0` = 0x9A (R357). -/
  | jsri (src : Opnd)
  /-- `INDEXB.B`: format G1, `byte0` = 0x9C (R342). -/
  | indexbB (src : Opnd)
  /-- `INDEXB.W`: format G1, `byte0` = 0x9D (R342). -/
  | indexbW (src : Opnd)
  /-- `INDEXW.B`: format G1, `byte0` = 0x9E (R343). -/
  | indexwB (src : Opnd)
  /-- `INDEXW.W`: format G1, `byte0` = 0x9F (R343). -/
  | indexwW (src : Opnd)
  /-- `INDEXL.B`: format G1, `byte0` = 0xA0 (R344). -/
  | indexlB (src : Opnd)
  /-- `INDEXL.W`: format G1, `byte0` = 0xA1 (R344). -/
  | indexlW (src : Opnd)
  /-- `BITINDEX.B`: format G1, `byte0` = 0xA2 (R345). -/
  | bitindexB (src : Opnd)
  /-- `BITINDEX.W`: format G1, `byte0` = 0xA3 (R345). -/
  | bitindexW (src : Opnd)
  /-- `LDC src,FLG`: format C, `byte0` = 0xA4 (R245). -/
  | ldcFlg (src : Opnd)
  /-- `LDC src,SP`: format C, `byte0` = 0xA4 (R245). -/
  | ldcSp (src : Opnd)
  /-- `LDC src,INTB`: format C, `byte0` = 0xA4 (R245). -/
  | ldcIntb (src : Opnd)
  /-- `STC FLG,dst`: format C, `byte0` = 0xA5 (R246). -/
  | stcFlg (dst : Opnd)
  /-- `STC SP,dst`: format C, `byte0` = 0xA5 (R246). -/
  | stcSp (dst : Opnd)
  /-- `STC INTB,dst`: format C, `byte0` = 0xA5 (R246). -/
  | stcIntb (dst : Opnd)
  /-- `SCcnd`: format S, `byte0` = 0xA6 (R326). -/
  | scCnd (c : Cnd) (dst : Opnd)
  /-- `BSET`: format B, `byte0` = 0xB0, mask 0xF8 (R321). -/
  | bset (bit : BitVec 3) (dst : Opnd)
  /-- `BCLR`: format B, `byte0` = 0xB8, mask 0xF8 (R322). -/
  | bclr (bit : BitVec 3) (dst : Opnd)
  /-- `BNOT`: format B, `byte0` = 0xC0, mask 0xF8 (R323). -/
  | bnot (bit : BitVec 3) (dst : Opnd)
  /-- `BTST`: format B, `byte0` = 0xC8, mask 0xF8 (R324). -/
  | btst (bit : BitVec 3) (src : Opnd)
  /-- `BMcnd`: format BC, `byte0` = 0xD0, mask 0xF8 (R325). -/
  | bmCnd (bit : BitVec 3) (c : Cnd) (dst : Opnd)
  /-- `FSET C`: format N, `byte0` = 0xD8 (R361). -/
  | fsetC
  /-- `FSET Z`: format N, `byte0` = 0xD9 (R361). -/
  | fsetZ
  /-- `FSET S`: format N, `byte0` = 0xDA (R361). -/
  | fsetS
  /-- `FSET O`: format N, `byte0` = 0xDB (R361). -/
  | fsetO
  /-- `FSET I`: format N, `byte0` = 0xDC (R361). -/
  | fsetI
  /-- `Jcnd`: format J8, `byte0` = 0xE0, mask 0xF0 (R351). -/
  | jCnd (c : Cnd) (rel : BitVec 8)
  /-- `JMP.W`: format J16, `byte0` = 0xF0 (R352). -/
  | jmpW (rel : BitVec 16)
  /-- `JMP.A`: format J24, `byte0` = 0xF1 (R353). -/
  | jmpA (target : Addr)
  /-- `JSR.W`: format J16, `byte0` = 0xF2 (R355). -/
  | jsrW (rel : BitVec 16)
  /-- `JSR.A`: format J24, `byte0` = 0xF3 (R356). -/
  | jsrA (target : Addr)
  /-- `RTS`: format N, `byte0` = 0xF4 (R358). -/
  | rts
  /-- `REIT`: format N, `byte0` = 0xF5 (R360). -/
  | reit
  /-- `INT`: format I8, `byte0` = 0xF6 (R359). -/
  | int (vector : BitVec 8)
  /-- `FCLR C`: format N, `byte0` = 0xF8 (R362). -/
  | fclrC
  /-- `FCLR Z`: format N, `byte0` = 0xF9 (R362). -/
  | fclrZ
  /-- `FCLR S`: format N, `byte0` = 0xFA (R362). -/
  | fclrS
  /-- `FCLR O`: format N, `byte0` = 0xFB (R362). -/
  | fclrO
  /-- `FCLR I`: format N, `byte0` = 0xFC (R362). -/
  | fclrI
deriving DecidableEq, Repr

end Sys2Proof
end

