-- ==== Sys2Proof/WellFormed.lean ====
section
/-! DEFINITION. Which operand forms an instruction admits, written from the list of illegal cells (60_exceptions.md R403;
95_test_vectors.md section 3, "Totality"), and well-formed instructions: those whose setup raises no
IllegalAddressingMode. An instruction that is not well formed still decodes and still runs: its effect is the fatal entry. -/

namespace Sys2Proof

/-- How an instruction uses an operand: a value of a width (with promotion to 16 bits allowed or forbidden, 41_resolver.md
R174, R175), a pointer (R183), or the base of a bit operand (R188). -/
inductive OpndUse where
  | value (w : Width) (promote : Bool)
  | pointer
  | bitBase
deriving DecidableEq, Repr

/-- Is the operand an address register (modes 4 and 5)? -/
def Opnd.isAReg : Opnd → Bool
  | .areg _ => true
  | _ => false

/-- Is the operand in memory (modes 6 to 15)? -/
def Opnd.isMem : Opnd → Bool
  | .dreg _ => false
  | .areg _ => false
  | _ => true

/-- Modes 2 and 3, which have no 32-bit view (10_state.md R26). -/
def Opnd.isR2R3 : Opnd → Bool
  | .dreg .r2 => true
  | .dreg .r3 => true
  | _ => false

/-- The operand forms a use admits (R403): width 32 excludes modes 2 and 3; a pointer excludes modes 0 to 5; a bit base
excludes modes 4 and 5; width 8 with promotion forbidden excludes modes 4 and 5. -/
def OpndUse.admits : OpndUse → Opnd → Bool
  | .value .byte true, _ => true
  | .value .byte false, o => !o.isAReg
  | .value .word _, _ => true
  | .value .long _, o => !o.isR2R3
  | .pointer, o => o.isMem
  | .bitBase, o => !o.isAReg

/-- The operands of an instruction in resolution order (40_dispatcher.md R147), each with the use the opcode table gives
it (its `width`, `legality` and `promote` columns). -/
def Instr.operands : Instr → List (OpndUse × Opnd)
  | .nop
  | .fsetC
  | .fsetZ
  | .fsetS
  | .fsetO
  | .fsetI
  | .jCnd _ _
  | .jmpW _
  | .jmpA _
  | .jsrW _
  | .jsrA _
  | .rts
  | .reit
  | .int _
  | .fclrC
  | .fclrZ
  | .fclrS
  | .fclrO
  | .fclrI =>
    []
  | .movB src dst
  | .addB src dst
  | .adcB src dst
  | .subB src dst
  | .sbbB src dst
  | .cmpB src dst
  | .andB src dst
  | .orB src dst
  | .xorB src dst
  | .tstB src dst =>
    [(.value .byte true, src), (.value .byte true, dst)]
  | .movW src dst
  | .addW src dst
  | .adcW src dst
  | .subW src dst
  | .sbbW src dst
  | .cmpW src dst
  | .andW src dst
  | .orW src dst
  | .xorW src dst
  | .tstW src dst =>
    [(.value .word true, src), (.value .word true, dst)]
  | .movL src dst
  | .addL src dst
  | .adcL src dst
  | .subL src dst
  | .sbbL src dst
  | .cmpL src dst
  | .andL src dst
  | .orL src dst
  | .xorL src dst
  | .tstL src dst =>
    [(.value .long true, src), (.value .long true, dst)]
  | .daddB src dst
  | .dsubB src dst =>
    [(.value .byte false, src), (.value .byte false, dst)]
  | .daddW src dst
  | .dsubW src dst =>
    [(.value .word false, src), (.value .word false, dst)]
  | .extsB src dst
  | .extzB src dst =>
    [(.value .byte false, src), (.value .word true, dst)]
  | .extsW src dst
  | .extzW src dst =>
    [(.value .word false, src), (.value .long true, dst)]
  | .lea src dst =>
    [(.pointer, src), (.value .long true, dst)]
  | .movBImm o _
  | .addBImm o _
  | .subBImm o _
  | .cmpBImm o _
  | .andBImm o _
  | .orBImm o _
  | .xorBImm o _
  | .tstBImm o _
  | .addqB _ o
  | .notB o
  | .negB o
  | .indexbB o
  | .indexwB o
  | .indexlB o
  | .bitindexB o =>
    [(.value .byte true, o)]
  | .movWImm o _
  | .addWImm o _
  | .subWImm o _
  | .cmpWImm o _
  | .andWImm o _
  | .orWImm o _
  | .xorWImm o _
  | .tstWImm o _
  | .addqW _ o
  | .notW o
  | .negW o
  | .indexbW o
  | .indexwW o
  | .indexlW o
  | .bitindexW o
  | .ldcFlg o
  | .stcFlg o
  | .scCnd _ o =>
    [(.value .word true, o)]
  | .movLImm o _
  | .addLImm o _
  | .subLImm o _
  | .cmpLImm o _
  | .andLImm o _
  | .orLImm o _
  | .xorLImm o _
  | .tstLImm o _
  | .addqL _ o
  | .notL o
  | .negL o
  | .ldcSp o
  | .ldcIntb o
  | .stcSp o
  | .stcIntb o =>
    [(.value .long true, o)]
  | .shlB _ o
  | .shrB _ o
  | .sarB _ o
  | .rolB _ o
  | .rorB _ o
  | .pushB o
  | .popB o =>
    [(.value .byte false, o)]
  | .shlW _ o
  | .shrW _ o
  | .sarW _ o
  | .rolW _ o
  | .rorW _ o
  | .pushW o
  | .popW o =>
    [(.value .word false, o)]
  | .shlL _ o
  | .shrL _ o
  | .sarL _ o
  | .rolL _ o
  | .rorL _ o
  | .pushL o
  | .popL o =>
    [(.value .long false, o)]
  | .pusha o
  | .jmpi o
  | .jsri o =>
    [(.pointer, o)]
  | .bset _ o
  | .bclr _ o
  | .bnot _ o
  | .btst _ o
  | .bmCnd _ _ o =>
    [(.bitBase, o)]

/-- A well-formed instruction: every operand is of a form its use admits. -/
def Instr.wellFormed (i : Instr) : Bool :=
  i.operands.all fun p => p.1.admits p.2

/-- The mode code reported when an instruction is not well formed: that of its first operand in resolution order that is
not admitted (40_dispatcher.md R147, 60_exceptions.md R403, R406). -/
def Instr.firstIllegalMode (i : Instr) : Option (BitVec 4) :=
  (i.operands.find? fun p => !(p.1.admits p.2)).map fun p => p.2.mode

end Sys2Proof
end

