-- ==== Sys2Proof/Decode.lean ====
section
/-! DEFINITION. The decoder (bytes to an instruction, or a rejection by name) and after it the encoder, both from
spec/30_encoding.md. The decoder reads the mode code of every operand; whether that mode is legal for the operand is the
resolver's question (41_resolver.md R172), asked when the instruction runs. -/

namespace Sys2Proof

/-! ## Bit fields and stream fields -/

/-- `byte[7:4]`. -/
def hiNibble (b : Byte) : BitVec 4 := b.extractLsb' 4 4

/-- `byte[3:0]`. -/
def loNibble (b : Byte) : BitVec 4 := b.extractLsb' 0 4

/-- One stream byte and what follows it. -/
def takeByte : List Byte → Option (BitVec 8 × List Byte)
  | b :: t => some (b, t)
  | [] => none

/-- A 16-bit stream field, low byte first (20_memory.md R76). -/
def takeHalf : List Byte → Option (BitVec 16 × List Byte)
  | b0 :: b1 :: t => some (b1 ++ b0, t)
  | _ => none

/-- A 24-bit stream field, low byte first (20_memory.md R76, R92). -/
def takeTriple : List Byte → Option (BitVec 24 × List Byte)
  | b0 :: b1 :: b2 :: t => some (b2 ++ b1 ++ b0, t)
  | _ => none

/-- A 32-bit stream field, low byte first (20_memory.md R76). -/
def takeWord : List Byte → Option (BitVec 32 × List Byte)
  | b0 :: b1 :: b2 :: b3 :: t => some (b3 ++ b2 ++ b1 ++ b0, t)
  | _ => none

/-- The condition of a 4-bit code (42_flags_conditions.md R213). -/
def Cnd.ofCode (c : BitVec 4) : Cnd :=
  match c.toNat with
  | 0 => .geu
  | 1 => .gtu
  | 2 => .eq
  | 3 => .n
  | 4 => .le
  | 5 => .o
  | 6 => .ge
  | 7 => .t
  | 8 => .ltu
  | 9 => .leu
  | 10 => .ne
  | 11 => .pz
  | 12 => .gt
  | 13 => .no
  | 14 => .lt
  | _ => .f

/-- The operand of a mode code, with its extension bytes taken from the stream (41_resolver.md R173, R178). -/
def takeOpnd (m : BitVec 4) (bs : List Byte) : Option (Opnd × List Byte) :=
  match m.toNat with
  | 0 => some (.dreg .r0, bs)
  | 1 => some (.dreg .r1, bs)
  | 2 => some (.dreg .r2, bs)
  | 3 => some (.dreg .r3, bs)
  | 4 => some (.areg .a0, bs)
  | 5 => some (.areg .a1, bs)
  | 6 => some (.ind .a0, bs)
  | 7 => some (.ind .a1, bs)
  | 8 => (takeByte bs).map fun p => (.dsp8 .a0 p.1, p.2)
  | 9 => (takeByte bs).map fun p => (.dsp8 .a1 p.1, p.2)
  | 10 => (takeHalf bs).map fun p => (.dsp16 .a0 p.1, p.2)
  | 11 => (takeHalf bs).map fun p => (.dsp16 .a1 p.1, p.2)
  | 12 => (takeTriple bs).map fun p => (.dsp24 .a0 p.1, p.2)
  | 13 => (takeTriple bs).map fun p => (.dsp24 .a1 p.1, p.2)
  | 14 => (takeHalf bs).map fun p => (.abs16 p.1, p.2)
  | _ => (takeTriple bs).map fun p => (.abs24 p.1, p.2)

/-! ## Descriptors -/

/-- The setup routine a descriptor names (30_encoding.md R101, R104), with the instruction it builds. Formats that read
the stream alike share a form: G1, P and B (reserved high nibble); S and BC (a condition there); J8 and I8 (one byte). -/
inductive Form where
  /-- Format N: no byte after the opcode. -/
  | fixed (i : Instr)
  /-- Format G2: source and destination. -/
  | g2 (mk : Opnd → Opnd → Instr)
  /-- Format I, `.B`. -/
  | immB (mk : Opnd → BitVec 8 → Instr)
  /-- Format I, `.W`. -/
  | immW (mk : Opnd → BitVec 16 → Instr)
  /-- Format I, `.L`. -/
  | immL (mk : Opnd → BitVec 32 → Instr)
  /-- Format Q: a 4-bit embedded immediate and a destination. -/
  | q (mk : BitVec 4 → Opnd → Instr)
  /-- Formats G1, P and B: `byte1[7:4]` must be 0, then one operand. -/
  | one (mk : Opnd → Instr)
  /-- Format C: `byte1[7:4]` selects FLG, SP or INTB. -/
  | creg (flg sp intb : Opnd → Instr)
  /-- Formats S and BC: a condition and one operand. -/
  | cnd (mk : Cnd → Opnd → Instr)
  /-- Formats J8 and I8: one trailing byte. -/
  | j8 (mk : BitVec 8 → Instr)
  /-- Format J16. -/
  | j16 (mk : BitVec 16 → Instr)
  /-- Format J24. -/
  | j24 (mk : BitVec 24 → Instr)

/-- A row of the descriptor table: it holds of `byte0` when `byte0 AND mask = pat` (30_encoding.md R101, R102). -/
structure Desc where
  pat : Byte
  mask : Byte
  form : Byte → Form

/-- A row for one value of `byte0` (mask 0xFF). -/
def Desc.exact (pat : Byte) (f : Form) : Desc := ⟨pat, 0xFF#8, fun _ => f⟩

/-- A row of mask 0xF8, whose `byte0[2:0]` is a bit number (30_encoding.md R113, R114). -/
def Desc.bitForm (pat : Byte) (f : BitVec 3 → Form) : Desc :=
  ⟨pat, 0xF8#8, fun b0 => f (b0.extractLsb' 0 3)⟩

/-- The row of mask 0xF0, whose `byte0[3:0]` is a condition (30_encoding.md R115). -/
def Desc.cndForm (pat : Byte) (f : Cnd → Form) : Desc :=
  ⟨pat, 0xF0#8, fun b0 => f (Cnd.ofCode (loNibble b0))⟩

/-- Descriptor rows of the MOV, LEA, EXTS, EXTZ (43_data_movement.md). -/
def descMoves : List Desc := [
  .exact 0x10#8 (.g2 .movB),
  .exact 0x11#8 (.g2 .movW),
  .exact 0x12#8 (.g2 .movL),
  .exact 0x40#8 (.g2 .extsB),
  .exact 0x41#8 (.g2 .extsW),
  .exact 0x44#8 (.g2 .extzB),
  .exact 0x45#8 (.g2 .extzW),
  .exact 0x48#8 (.g2 .lea),
  .exact 0x50#8 (.immB .movBImm),
  .exact 0x51#8 (.immW .movWImm),
  .exact 0x52#8 (.immL .movLImm)]

/-- Descriptor rows of the integer arithmetic (44_arithmetic.md). -/
def descArith : List Desc := [
  .exact 0x14#8 (.g2 .addB),
  .exact 0x15#8 (.g2 .addW),
  .exact 0x16#8 (.g2 .addL),
  .exact 0x18#8 (.g2 .adcB),
  .exact 0x19#8 (.g2 .adcW),
  .exact 0x1A#8 (.g2 .adcL),
  .exact 0x1C#8 (.g2 .subB),
  .exact 0x1D#8 (.g2 .subW),
  .exact 0x1E#8 (.g2 .subL),
  .exact 0x20#8 (.g2 .sbbB),
  .exact 0x21#8 (.g2 .sbbW),
  .exact 0x22#8 (.g2 .sbbL),
  .exact 0x24#8 (.g2 .cmpB),
  .exact 0x25#8 (.g2 .cmpW),
  .exact 0x26#8 (.g2 .cmpL),
  .exact 0x54#8 (.immB .addBImm),
  .exact 0x55#8 (.immW .addWImm),
  .exact 0x56#8 (.immL .addLImm),
  .exact 0x58#8 (.immB .subBImm),
  .exact 0x59#8 (.immW .subWImm),
  .exact 0x5A#8 (.immL .subLImm),
  .exact 0x5C#8 (.immB .cmpBImm),
  .exact 0x5D#8 (.immW .cmpWImm),
  .exact 0x5E#8 (.immL .cmpLImm),
  .exact 0x70#8 (.q .addqB),
  .exact 0x71#8 (.q .addqW),
  .exact 0x72#8 (.q .addqL),
  .exact 0x8C#8 (.one .negB),
  .exact 0x8D#8 (.one .negW),
  .exact 0x8E#8 (.one .negL)]

/-- Descriptor rows of the decimal arithmetic (44_arithmetic.md). -/
def descDecimal : List Desc := [
  .exact 0x38#8 (.g2 .daddB),
  .exact 0x39#8 (.g2 .daddW),
  .exact 0x3C#8 (.g2 .dsubB),
  .exact 0x3D#8 (.g2 .dsubW)]

/-- Descriptor rows of the logic (45_logic_shift.md). -/
def descLogic : List Desc := [
  .exact 0x28#8 (.g2 .andB),
  .exact 0x29#8 (.g2 .andW),
  .exact 0x2A#8 (.g2 .andL),
  .exact 0x2C#8 (.g2 .orB),
  .exact 0x2D#8 (.g2 .orW),
  .exact 0x2E#8 (.g2 .orL),
  .exact 0x30#8 (.g2 .xorB),
  .exact 0x31#8 (.g2 .xorW),
  .exact 0x32#8 (.g2 .xorL),
  .exact 0x34#8 (.g2 .tstB),
  .exact 0x35#8 (.g2 .tstW),
  .exact 0x36#8 (.g2 .tstL),
  .exact 0x60#8 (.immB .andBImm),
  .exact 0x61#8 (.immW .andWImm),
  .exact 0x62#8 (.immL .andLImm),
  .exact 0x64#8 (.immB .orBImm),
  .exact 0x65#8 (.immW .orWImm),
  .exact 0x66#8 (.immL .orLImm),
  .exact 0x68#8 (.immB .xorBImm),
  .exact 0x69#8 (.immW .xorWImm),
  .exact 0x6A#8 (.immL .xorLImm),
  .exact 0x6C#8 (.immB .tstBImm),
  .exact 0x6D#8 (.immW .tstWImm),
  .exact 0x6E#8 (.immL .tstLImm),
  .exact 0x88#8 (.one .notB),
  .exact 0x89#8 (.one .notW),
  .exact 0x8A#8 (.one .notL)]

/-- Descriptor rows of the shifts and rotates (45_logic_shift.md). -/
def descShift : List Desc := [
  .exact 0x74#8 (.q .shlB),
  .exact 0x75#8 (.q .shlW),
  .exact 0x76#8 (.q .shlL),
  .exact 0x78#8 (.q .shrB),
  .exact 0x79#8 (.q .shrW),
  .exact 0x7A#8 (.q .shrL),
  .exact 0x7C#8 (.q .sarB),
  .exact 0x7D#8 (.q .sarW),
  .exact 0x7E#8 (.q .sarL),
  .exact 0x80#8 (.q .rolB),
  .exact 0x81#8 (.q .rolW),
  .exact 0x82#8 (.q .rolL),
  .exact 0x84#8 (.q .rorB),
  .exact 0x85#8 (.q .rorW),
  .exact 0x86#8 (.q .rorL)]

/-- Descriptor rows of the stack instructions and control-register moves (43_data_movement.md). -/
def descStack : List Desc := [
  .exact 0x90#8 (.one .pushB),
  .exact 0x91#8 (.one .pushW),
  .exact 0x92#8 (.one .pushL),
  .exact 0x94#8 (.one .popB),
  .exact 0x95#8 (.one .popW),
  .exact 0x96#8 (.one .popL),
  .exact 0x98#8 (.one .pusha),
  .exact 0xA4#8 (.creg .ldcFlg .ldcSp .ldcIntb),
  .exact 0xA5#8 (.creg .stcFlg .stcSp .stcIntb)]

/-- Descriptor rows of the bit and condition-store instructions (46_bit.md). -/
def descBit : List Desc := [
  .exact 0xA6#8 (.cnd .scCnd),
  .bitForm 0xB0#8 (fun bit => .one (.bset bit)),
  .bitForm 0xB8#8 (fun bit => .one (.bclr bit)),
  .bitForm 0xC0#8 (fun bit => .one (.bnot bit)),
  .bitForm 0xC8#8 (fun bit => .one (.btst bit)),
  .bitForm 0xD0#8 (fun bit => .cnd (.bmCnd bit))]

/-- Descriptor rows of the prefix instructions (47_prefix.md). -/
def descIndex : List Desc := [
  .exact 0x9C#8 (.one .indexbB),
  .exact 0x9D#8 (.one .indexbW),
  .exact 0x9E#8 (.one .indexwB),
  .exact 0x9F#8 (.one .indexwW),
  .exact 0xA0#8 (.one .indexlB),
  .exact 0xA1#8 (.one .indexlW),
  .exact 0xA2#8 (.one .bitindexB),
  .exact 0xA3#8 (.one .bitindexW)]

/-- Descriptor rows of the control transfer and system instructions (48_control_system.md). -/
def descControl : List Desc := [
  .exact 0x01#8 (.fixed .nop),
  .exact 0x99#8 (.one .jmpi),
  .exact 0x9A#8 (.one .jsri),
  .exact 0xD8#8 (.fixed .fsetC),
  .exact 0xD9#8 (.fixed .fsetZ),
  .exact 0xDA#8 (.fixed .fsetS),
  .exact 0xDB#8 (.fixed .fsetO),
  .exact 0xDC#8 (.fixed .fsetI),
  .cndForm 0xE0#8 (fun c => .j8 (.jCnd c)),
  .exact 0xF0#8 (.j16 .jmpW),
  .exact 0xF1#8 (.j24 .jmpA),
  .exact 0xF2#8 (.j16 .jsrW),
  .exact 0xF3#8 (.j24 .jsrA),
  .exact 0xF4#8 (.fixed .rts),
  .exact 0xF5#8 (.fixed .reit),
  .exact 0xF6#8 (.j8 .int),
  .exact 0xF8#8 (.fixed .fclrC),
  .exact 0xF9#8 (.fixed .fclrZ),
  .exact 0xFA#8 (.fixed .fclrS),
  .exact 0xFB#8 (.fixed .fclrO),
  .exact 0xFC#8 (.fixed .fclrI)]

/-- DESC, the descriptor table (10_state.md R54; opcode_table.json). -/
def descTable : List Desc :=
  descMoves ++ descArith ++ descDecimal ++ descLogic ++ descShift ++ descStack ++ descBit ++ descIndex ++ descControl

/-- The descriptor of `byte0` (30_encoding.md R102, 40_dispatcher.md R144): the row that matches, or none. -/
def descriptor (b0 : Byte) : Option Form :=
  (descTable.find? fun d => b0 &&& d.mask == d.pat).map fun d => d.form b0

/-! ## The decoder -/

/-- What the decoder answers. -/
inductive Decoded where
  /-- The instruction and the bytes after it. -/
  | ok (i : Instr) (rest : List Byte)
  /-- `byte0` has no descriptor (30_encoding.md R122). -/
  | noDescriptor (b0 : Byte)
  /-- A field of the mode byte holds a reserved value (30_encoding.md R123). -/
  | reservedField (b0 : Byte)
  /-- The byte list ends inside the instruction (no rule: a list given to the decoder may be short). -/
  | truncated
deriving DecidableEq, Repr

/-- An instruction built from the last stream field, or `truncated` where the field is not there. -/
def Decoded.build {α : Type} (mk : α → Instr) : Option (α × List Byte) → Decoded
  | some p => .ok (mk p.1) p.2
  | none => .truncated

/-- One operand whose mode code is the low nibble of the mode byte. -/
def decodeOne (mk : Opnd → Instr) (b1 : Byte) (t : List Byte) : Decoded :=
  .build mk (takeOpnd (loNibble b1) t)

/-- A destination and then a trailing immediate (30_encoding.md R107), the high nibble of the mode byte reserved. -/
def decodeImm {n : Nat} (take : List Byte → Option (BitVec n × List Byte)) (mk : Opnd → BitVec n → Instr)
    (b0 b1 : Byte) (t : List Byte) : Decoded :=
  if hiNibble b1 = 0#4 then
    match takeOpnd (loNibble b1) t with
    | some p => .build (mk p.1) (take p.2)
    | none => .truncated
  else .reservedField b0

/-- The setup of a format that has a mode byte `b1` (40_dispatcher.md R145). -/
def Form.decodeMode (f : Form) (b0 b1 : Byte) (t : List Byte) : Decoded :=
  match f with
  | .g2 mk =>
    match takeOpnd (hiNibble b1) t with
    | some p => .build (mk p.1) (takeOpnd (loNibble b1) p.2)
    | none => .truncated
  | .immB mk => decodeImm takeByte mk b0 b1 t
  | .immW mk => decodeImm takeHalf mk b0 b1 t
  | .immL mk => decodeImm takeWord mk b0 b1 t
  | .q mk => decodeOne (mk (hiNibble b1)) b1 t
  | .one mk => if hiNibble b1 = 0#4 then decodeOne mk b1 t else .reservedField b0
  | .creg flg sp intb =>
    match (hiNibble b1).toNat with
    | 0 => decodeOne flg b1 t
    | 1 => decodeOne sp b1 t
    | 2 => decodeOne intb b1 t
    | _ => .reservedField b0
  | .cnd mk => decodeOne (mk (Cnd.ofCode (hiNibble b1))) b1 t
  | .fixed i => .ok i (b1 :: t)
  | .j8 mk => .build mk (takeByte (b1 :: t))
  | .j16 mk => .build mk (takeHalf (b1 :: t))
  | .j24 mk => .build mk (takeTriple (b1 :: t))

/-- The decoder: the first instruction of a byte list (30_encoding.md R100, R125). -/
def decode : List Byte → Decoded
  | [] => .truncated
  | b0 :: t =>
    match descriptor b0 with
    | none => .noDescriptor b0
    | some (.fixed i) => .ok i t
    | some f =>
      match t with
      | [] => .truncated
      | b1 :: u => f.decodeMode b0 b1 u

/-- The length of the longest instruction (30_encoding.md R100). -/
def maxLength : Nat := 9

/-- The bytes of an instruction given as a number of `nbits` bits, bit 0 the least significant bit of the first byte; bits
from `nbits` on are 0. -/
def tableBytes (nbits w : Nat) : List Byte :=
  (List.range maxLength).map fun k => BitVec.ofNat 8 (w % 2 ^ nbits / 256 ^ k)

/-- The instruction the decoder reads from a table word. -/
def decodeTableWord (nbits w : Nat) : Option Instr :=
  match decode (tableBytes nbits w) with
  | .ok i _ => some i
  | _ => none

/-! ## The encoder -/

/-- The two bytes of a 16-bit field, low byte first. -/
def halfBytes (d : BitVec 16) : List Byte := [d.extractLsb' 0 8, d.extractLsb' 8 8]

/-- The three bytes of a 24-bit field, low byte first. -/
def tripleBytes (d : BitVec 24) : List Byte := [d.extractLsb' 0 8, d.extractLsb' 8 8, d.extractLsb' 16 8]

/-- The four bytes of a 32-bit field, low byte first. -/
def wordBytes (d : BitVec 32) : List Byte :=
  [d.extractLsb' 0 8, d.extractLsb' 8 8, d.extractLsb' 16 8, d.extractLsb' 24 8]

/-- The extension bytes of an operand (41_resolver.md R178). -/
def Opnd.ext : Opnd → List Byte
  | .dreg _ => []
  | .areg _ => []
  | .ind _ => []
  | .dsp8 _ d => [d]
  | .dsp16 _ d => halfBytes d
  | .dsp24 _ d => tripleBytes d
  | .abs16 d => halfBytes d
  | .abs24 d => tripleBytes d

/-- Format G2 (30_encoding.md R106). -/
def encG2 (b0 : Byte) (src dst : Opnd) : List Byte :=
  b0 :: (src.mode ++ dst.mode) :: (src.ext ++ dst.ext)

/-- Formats with a 4-bit field and one operand in the mode byte: Q, G1, P, C, S, B, BC (30_encoding.md R108 to R114). -/
def encOne (b0 : Byte) (field : BitVec 4) (o : Opnd) : List Byte :=
  b0 :: (field ++ o.mode) :: o.ext

/-- Format I (30_encoding.md R107). -/
def encImm (b0 : Byte) (dst : Opnd) (imm : List Byte) : List Byte :=
  b0 :: (0#4 ++ dst.mode) :: (dst.ext ++ imm)

/-- The bytes of an instruction. -/
def encode : Instr → List Byte
  | .nop => [0x01#8]
  | .movB src dst => encG2 0x10#8 src dst
  | .movW src dst => encG2 0x11#8 src dst
  | .movL src dst => encG2 0x12#8 src dst
  | .addB src dst => encG2 0x14#8 src dst
  | .addW src dst => encG2 0x15#8 src dst
  | .addL src dst => encG2 0x16#8 src dst
  | .adcB src dst => encG2 0x18#8 src dst
  | .adcW src dst => encG2 0x19#8 src dst
  | .adcL src dst => encG2 0x1A#8 src dst
  | .subB src dst => encG2 0x1C#8 src dst
  | .subW src dst => encG2 0x1D#8 src dst
  | .subL src dst => encG2 0x1E#8 src dst
  | .sbbB src dst => encG2 0x20#8 src dst
  | .sbbW src dst => encG2 0x21#8 src dst
  | .sbbL src dst => encG2 0x22#8 src dst
  | .cmpB src dst => encG2 0x24#8 src dst
  | .cmpW src dst => encG2 0x25#8 src dst
  | .cmpL src dst => encG2 0x26#8 src dst
  | .andB src dst => encG2 0x28#8 src dst
  | .andW src dst => encG2 0x29#8 src dst
  | .andL src dst => encG2 0x2A#8 src dst
  | .orB src dst => encG2 0x2C#8 src dst
  | .orW src dst => encG2 0x2D#8 src dst
  | .orL src dst => encG2 0x2E#8 src dst
  | .xorB src dst => encG2 0x30#8 src dst
  | .xorW src dst => encG2 0x31#8 src dst
  | .xorL src dst => encG2 0x32#8 src dst
  | .tstB src dst => encG2 0x34#8 src dst
  | .tstW src dst => encG2 0x35#8 src dst
  | .tstL src dst => encG2 0x36#8 src dst
  | .daddB src dst => encG2 0x38#8 src dst
  | .daddW src dst => encG2 0x39#8 src dst
  | .dsubB src dst => encG2 0x3C#8 src dst
  | .dsubW src dst => encG2 0x3D#8 src dst
  | .extsB src dst => encG2 0x40#8 src dst
  | .extsW src dst => encG2 0x41#8 src dst
  | .extzB src dst => encG2 0x44#8 src dst
  | .extzW src dst => encG2 0x45#8 src dst
  | .lea src dst => encG2 0x48#8 src dst
  | .movBImm dst imm => encImm 0x50#8 dst [imm]
  | .movWImm dst imm => encImm 0x51#8 dst (halfBytes imm)
  | .movLImm dst imm => encImm 0x52#8 dst (wordBytes imm)
  | .addBImm dst imm => encImm 0x54#8 dst [imm]
  | .addWImm dst imm => encImm 0x55#8 dst (halfBytes imm)
  | .addLImm dst imm => encImm 0x56#8 dst (wordBytes imm)
  | .subBImm dst imm => encImm 0x58#8 dst [imm]
  | .subWImm dst imm => encImm 0x59#8 dst (halfBytes imm)
  | .subLImm dst imm => encImm 0x5A#8 dst (wordBytes imm)
  | .cmpBImm dst imm => encImm 0x5C#8 dst [imm]
  | .cmpWImm dst imm => encImm 0x5D#8 dst (halfBytes imm)
  | .cmpLImm dst imm => encImm 0x5E#8 dst (wordBytes imm)
  | .andBImm dst imm => encImm 0x60#8 dst [imm]
  | .andWImm dst imm => encImm 0x61#8 dst (halfBytes imm)
  | .andLImm dst imm => encImm 0x62#8 dst (wordBytes imm)
  | .orBImm dst imm => encImm 0x64#8 dst [imm]
  | .orWImm dst imm => encImm 0x65#8 dst (halfBytes imm)
  | .orLImm dst imm => encImm 0x66#8 dst (wordBytes imm)
  | .xorBImm dst imm => encImm 0x68#8 dst [imm]
  | .xorWImm dst imm => encImm 0x69#8 dst (halfBytes imm)
  | .xorLImm dst imm => encImm 0x6A#8 dst (wordBytes imm)
  | .tstBImm dst imm => encImm 0x6C#8 dst [imm]
  | .tstWImm dst imm => encImm 0x6D#8 dst (halfBytes imm)
  | .tstLImm dst imm => encImm 0x6E#8 dst (wordBytes imm)
  | .addqB imm dst => encOne 0x70#8 imm dst
  | .addqW imm dst => encOne 0x71#8 imm dst
  | .addqL imm dst => encOne 0x72#8 imm dst
  | .shlB n dst => encOne 0x74#8 n dst
  | .shlW n dst => encOne 0x75#8 n dst
  | .shlL n dst => encOne 0x76#8 n dst
  | .shrB n dst => encOne 0x78#8 n dst
  | .shrW n dst => encOne 0x79#8 n dst
  | .shrL n dst => encOne 0x7A#8 n dst
  | .sarB n dst => encOne 0x7C#8 n dst
  | .sarW n dst => encOne 0x7D#8 n dst
  | .sarL n dst => encOne 0x7E#8 n dst
  | .rolB n dst => encOne 0x80#8 n dst
  | .rolW n dst => encOne 0x81#8 n dst
  | .rolL n dst => encOne 0x82#8 n dst
  | .rorB n dst => encOne 0x84#8 n dst
  | .rorW n dst => encOne 0x85#8 n dst
  | .rorL n dst => encOne 0x86#8 n dst
  | .notB dst => encOne 0x88#8 0#4 dst
  | .notW dst => encOne 0x89#8 0#4 dst
  | .notL dst => encOne 0x8A#8 0#4 dst
  | .negB dst => encOne 0x8C#8 0#4 dst
  | .negW dst => encOne 0x8D#8 0#4 dst
  | .negL dst => encOne 0x8E#8 0#4 dst
  | .pushB src => encOne 0x90#8 0#4 src
  | .pushW src => encOne 0x91#8 0#4 src
  | .pushL src => encOne 0x92#8 0#4 src
  | .popB dst => encOne 0x94#8 0#4 dst
  | .popW dst => encOne 0x95#8 0#4 dst
  | .popL dst => encOne 0x96#8 0#4 dst
  | .pusha src => encOne 0x98#8 0#4 src
  | .jmpi src => encOne 0x99#8 0#4 src
  | .jsri src => encOne 0x9A#8 0#4 src
  | .indexbB src => encOne 0x9C#8 0#4 src
  | .indexbW src => encOne 0x9D#8 0#4 src
  | .indexwB src => encOne 0x9E#8 0#4 src
  | .indexwW src => encOne 0x9F#8 0#4 src
  | .indexlB src => encOne 0xA0#8 0#4 src
  | .indexlW src => encOne 0xA1#8 0#4 src
  | .bitindexB src => encOne 0xA2#8 0#4 src
  | .bitindexW src => encOne 0xA3#8 0#4 src
  | .ldcFlg src => encOne 0xA4#8 0#4 src
  | .ldcSp src => encOne 0xA4#8 1#4 src
  | .ldcIntb src => encOne 0xA4#8 2#4 src
  | .stcFlg dst => encOne 0xA5#8 0#4 dst
  | .stcSp dst => encOne 0xA5#8 1#4 dst
  | .stcIntb dst => encOne 0xA5#8 2#4 dst
  | .scCnd c dst => encOne 0xA6#8 c.code dst
  | .bset bit dst => encOne (0x16#5 ++ bit) 0#4 dst
  | .bclr bit dst => encOne (0x17#5 ++ bit) 0#4 dst
  | .bnot bit dst => encOne (0x18#5 ++ bit) 0#4 dst
  | .btst bit src => encOne (0x19#5 ++ bit) 0#4 src
  | .bmCnd bit c dst => encOne (0x1A#5 ++ bit) c.code dst
  | .fsetC => [0xD8#8]
  | .fsetZ => [0xD9#8]
  | .fsetS => [0xDA#8]
  | .fsetO => [0xDB#8]
  | .fsetI => [0xDC#8]
  | .jCnd c rel => [0xE#4 ++ c.code, rel]
  | .jmpW rel => 0xF0#8 :: halfBytes rel
  | .jmpA target => 0xF1#8 :: tripleBytes target
  | .jsrW rel => 0xF2#8 :: halfBytes rel
  | .jsrA target => 0xF3#8 :: tripleBytes target
  | .rts => [0xF4#8]
  | .reit => [0xF5#8]
  | .int vector => [0xF6#8, vector]
  | .fclrC => [0xF8#8]
  | .fclrZ => [0xF9#8]
  | .fclrS => [0xFA#8]
  | .fclrO => [0xFB#8]
  | .fclrI => [0xFC#8]

/-- The first byte of an instruction, the `opcode` a fault records (10_state.md R58). -/
def Instr.opcode (i : Instr) : Byte := (encode i).headD 0#8

end Sys2Proof
end

