-- ==== Sys2Proof/Machine/State.lean ====
section
/-! DEFINITION. The state of the engine as plain data (10_state.md R20), the reasons a step can stop, and the state after
reset (10_state.md R65, 70_reset_and_hazards.md R440). -/

namespace Sys2Proof.Machine

open Sys2Proof

/-- The kind of a sticky index (10_state.md R40): added to effective addresses, or to bit numbers. -/
inductive StickyKind where
  | addr
  | bit
deriving DecidableEq, Repr

/-- The sticky slot (10_state.md R40): `IDLE`, or `ARMED(value, kind)`. -/
inductive Sticky where
  | idle
  | armed (value : BitVec 24) (kind : StickyKind)
deriving DecidableEq, Repr

/-- The kind of a fatal error, with the mode code that only IllegalAddressingMode records (10_state.md R58). -/
inductive FatalKind where
  | illegalOpcode
  | illegalAddressingMode (mode : BitVec 4)
deriving DecidableEq, Repr

/-- The fault record (10_state.md R58): the kind, the address of the faulting instruction and its first byte. -/
structure FaultRecord where
  kind : FatalKind
  pc : Addr
  opcode : Byte
deriving DecidableEq, Repr

/-- The level of an interrupt request, 1 to 7 (60_exceptions.md R410; any other level is refused as an input,
93_implementation_defined.md item 20). -/
inductive IntLevel where
  | l1
  | l2
  | l3
  | l4
  | l5
  | l6
  | l7
deriving DecidableEq, Repr

/-- The level as the 3-bit number compared with IPL (60_exceptions.md R411). -/
def IntLevel.bits : IntLevel → BitVec 3
  | .l1 => 1#3
  | .l2 => 2#3
  | .l3 => 3#3
  | .l4 => 4#3
  | .l5 => 5#3
  | .l6 => 6#3
  | .l7 => 7#3

/-- An interrupt request, and also the `ack` event that answers it (60_exceptions.md R410, R414). -/
structure Irq where
  level : IntLevel
  vector : BitVec 8
deriving DecidableEq, Repr

/-- Memory: the bytes that differ from what an unlisted address reads as, by rising address (20_memory.md R71, R74). -/
structure Memory where
  cells : List Host.Cell
deriving DecidableEq, Repr

/-- The state of the engine (10_state.md R20), the memory behind the reference bus (20_memory.md R74), and the two ends of
the interrupt interface: the samples still to come (an input, R60) and the acknowledgements made (an output, R414). -/
structure State where
  /-- R0, 16 bits. -/
  r0 : BitVec 16
  /-- R1, 16 bits. -/
  r1 : BitVec 16
  /-- R2, 16 bits. -/
  r2 : BitVec 16
  /-- R3, 16 bits. -/
  r3 : BitVec 16
  /-- A0, 32 bits. -/
  a0 : BitVec 32
  /-- A1, 32 bits. -/
  a1 : BitVec 32
  /-- SP, the stack pointer (R35). -/
  sp : BitVec 32
  /-- INTB, the base of the vector table (R36). -/
  intb : BitVec 32
  /-- FLG, the Flags Register (R31). -/
  flg : BitVec 16
  /-- PC (R29). -/
  pc : Addr
  /-- STICKY (R40). -/
  sticky : Sticky
  /-- INHIBIT (R42). -/
  inhibit : Bool
  /-- HALTED, the fatal-stop latch (R58). -/
  halted : Bool
  /-- FAULT, none until a fatal error (R58). -/
  fault : Option FaultRecord
  /-- DIAG.mcra (R59). -/
  diagMcra : Bool
  /-- DIAG.bcd (R59). -/
  diagBcd : Bool
  /-- CYC, an unbounded natural number (R57). -/
  cyc : Nat
  /-- The memory behind the bus. -/
  mem : Memory
  /-- The IRQ samples still to come, the next one first; when none is left the sample is NONE (R60). -/
  irq : List (Option Irq)
  /-- The `ack` events made so far, in order (60_exceptions.md R414). -/
  acks : List Irq
deriving DecidableEq, Repr

/-- PHASE between dispatches (10_state.md R53). -/
inductive Phase where
  | ready
  | halted
deriving DecidableEq, Repr

/-- PHASE as the view of HALTED that R53 says it is: "the two are one latch seen twice". -/
def State.phase (s : State) : Phase := if s.halted then .halted else .ready

/-- The faults a step can stop with. RP-1's own fatal errors are none of these: they are next states (R404). -/
inductive Fault where
  /-- Raised by `step` only, where the nine bytes it gives the decoder were too few. No instruction is longer than nine
  bytes (30_encoding.md R100), so it is never raised; it is here because the decoder is total. Safe. -/
  | fetchWindowTooShort
deriving DecidableEq, Repr

/-- The refusals a step can stop with. -/
inductive Refusal where
  /-- Raised by an arm of `exec` whose instruction has no meaning yet; no arm does. Safe. -/
  | notModelled (mnemonic : String)
deriving DecidableEq, Repr

/-- What a meaning and a step answer. -/
abbrev Answer := Host.Outcome State Fault Refusal

/-- The machine right after `reset()` (10_state.md R65) with nothing placed in memory. `pc` is the reset vector read from
that memory (R85), hence 0. CYC, which `reset()` leaves as it is, is 0: DESIGN CHOICE (notes/assumptions/4.md). No IRQ
sample is pending and no `ack` was made: DESIGN CHOICE (notes/assumptions/2.md, 3.md). -/
def State.reset : State where
  r0 := 0x0000#16
  r1 := 0x0000#16
  r2 := 0x0000#16
  r3 := 0x0000#16
  a0 := 0x00000000#32
  a1 := 0x00000000#32
  sp := 0x00000000#32
  intb := 0x00000000#32
  flg := 0x0000#16
  pc := 0x000000#24
  sticky := .idle
  inhibit := false
  halted := false
  fault := none
  diagMcra := false
  diagBcd := false
  cyc := 0
  mem := ⟨[]⟩
  irq := []
  acks := []

end Sys2Proof.Machine
end

