-- ==== Sys2Proof/Machine/Bits.lean ====
section
/-! DEFINITION. Bit helpers over operand values: bringing a value to a width, its sign, sign extension, bit fields and the
byte order of multi-byte fields (00_scope.md R10, R11; 20_memory.md R74). -/

namespace Sys2Proof.Machine

open Sys2Proof

/-- `v[w-1:0]`, zero-extended in the carrier. -/
def trunc : Width → Val → Val
  | .byte, v => (v.setWidth 8).setWidth 32
  | .word, v => (v.setWidth 16).setWidth 32
  | .long, v => v

/-- `sext_w(v)` reduced modulo `2^32` (R11). -/
def sext : Width → Val → Val
  | .byte, v => (v.setWidth 8).signExtend 32
  | .word, v => (v.setWidth 16).signExtend 32
  | .long, v => v

/-- `v[w-1]`, the sign bit at width `w` (R10). -/
def signBit (w : Width) (v : Val) : Bool := v.getLsbD (w.bits - 1)

/-- Is `v[w-1:0]` zero? -/
def isZero (w : Width) (v : Val) : Bool := trunc w v == 0#32

/-- `Adj(v, ws, wo) = v[min(ws,wo)-1:0]` (R11; 41_resolver.md R186). -/
def adj (v : Val) (ws wo : Width) : Val :=
  if ws.bits ≤ wo.bits then trunc ws v else trunc wo v

/-- `v[23:0]`: the address in a 32-bit register or memory word (10_state.md R28, R35, R36; 48_control_system.md R365). -/
def lowAddr (v : BitVec 32) : Addr := v.setWidth 24

/-- `zext_32` of a 24-bit address (20_memory.md R92). -/
def addrWord (a : Addr) : BitVec 32 := a.setWidth 32

end Sys2Proof.Machine
end

