-- ==== Sys2Proof/Machine/Flags.lean ====
section
/-! DEFINITION. The Flags component: the fields of FLG, the closed list of flag-update operations, the two sign-indexed
tables and the condition evaluator (10_state.md R31; 42_flags_conditions.md). Every operation is a function of a FLG value. -/

namespace Sys2Proof.Machine

open Sys2Proof

/-! ## Fields of FLG (10_state.md R31) -/

/-- The five single-bit flags. -/
inductive Flag where
  | c
  | z
  | s
  | o
  | i
deriving DecidableEq, Repr

/-- The bit of FLG that holds a flag (R31). -/
def Flag.bit : Flag → Nat
  | .c => 0
  | .z => 1
  | .s => 2
  | .o => 3
  | .i => 4

/-- A flag of a FLG value. -/
def getFlag (f : Flag) (flg : BitVec 16) : Bool := flg.getLsbD f.bit

/-- `FLG[f] <- t`, every other bit unchanged. -/
def setFlag (f : Flag) (t : Bool) (flg : BitVec 16) : BitVec 16 :=
  if t then flg ||| (1#16 <<< f.bit) else flg &&& ~~~(1#16 <<< f.bit)

/-- IPL, bits 10:8 of FLG. -/
def getIpl (flg : BitVec 16) : BitVec 3 := flg.extractLsb' 8 3

/-- `FLG.IPL <- l`, every other bit unchanged. -/
def setIpl (l : BitVec 3) (flg : BitVec 16) : BitVec 16 :=
  (flg &&& 0xF8FF#16) ||| (l.setWidth 16 <<< 8)

/-- The bits of FLG that exist: C, Z, S, O, I and IPL (R32). -/
def flgMask : BitVec 16 := 0x071F#16

/-! ## The tables (42_flags_conditions.md R204, R205) -/

/-- ADDTAB: the pairs (C, O) for addition, by index. -/
def addTab : List (Bool × Bool) :=
  [(false, false), (false, true), (true, false), (false, false),
   (true, false), (false, false), (true, true), (true, false)]

/-- SUBTAB: the pairs (C, O) for subtraction, by index; C is 1 where there is no borrow (R216). -/
def subTab : List (Bool × Bool) :=
  [(true, false), (false, false), (false, false), (false, true),
   (true, true), (true, false), (true, false), (false, false)]

/-- The 3-bit index of R203: the sign bits of operand 1, operand 2 and the result, operand 1 most significant. -/
def signIndex (w : Width) (a b r : Val) : Nat :=
  4 * (signBit w a).toNat + 2 * (signBit w b).toNat + (signBit w r).toNat

/-! ## Flag-update operations (42_flags_conditions.md R202) -/

/-- `FlagsLogic(r, w)` (R206): Z and S from the result. -/
def flagsLogic (w : Width) (r : Val) (flg : BitVec 16) : BitVec 16 :=
  setFlag .s (signBit w r) (setFlag .z (isZero w r) flg)

/-- `FlagsArith(T, a, b, r, w)` (R203): C and O from the table, Z and S from the result. -/
def flagsArith (tab : List (Bool × Bool)) (w : Width) (a b r : Val) (flg : BitVec 16) : BitVec 16 :=
  let co := tab.getD (signIndex w a b r) (false, false)
  flagsLogic w r (setFlag .o co.2 (setFlag .c co.1 flg))

/-- `FlagsBcd(r, w, c)` (R207): Z, S and C. -/
def flagsBcd (w : Width) (r : Val) (c : Bool) (flg : BitVec 16) : BitVec 16 :=
  setFlag .c c (flagsLogic w r flg)

/-- `FlagsLoad(v)` (R209, 10_state.md R32). -/
def flagsLoad (v : BitVec 16) : BitVec 16 := v &&& flgMask

/-- `FlagsIntEntry(L)` (R210): I is cleared; IPL becomes the level, or is kept where there is none. -/
def flagsIntEntry (l : Option IntLevel) (flg : BitVec 16) : BitVec 16 :=
  let f := setFlag .i false flg
  match l with
  | some lv => setIpl lv.bits f
  | none => f

/-! ## The condition evaluator -/

/-- CONDTAB (R212): one 32-bit word for each condition code, bit `f` of word `c` being `CONDTAB[(c << 5) OR f]`. -/
def condTab : List (BitVec 32) :=
  [0xAAAAAAAA#32, 0x22222222#32, 0xCCCCCCCC#32, 0xF0F0F0F0#32,
   0xCFFCCFFC#32, 0xFF00FF00#32, 0xF00FF00F#32, 0xFFFFFFFF#32,
   0x55555555#32, 0xDDDDDDDD#32, 0x33333333#32, 0x0F0F0F0F#32,
   0x30033003#32, 0x00FF00FF#32, 0x0FF00FF0#32, 0x00000000#32]

/-- `Cond(c)` (R211): CONDTAB at the condition's code and `FLG AND 0x1F`. -/
def condHolds (c : Cnd) (flg : BitVec 16) : Bool :=
  (condTab.getD c.code.toNat 0#32).getLsbD (flg &&& 0x001F#16).toNat

end Sys2Proof.Machine
end

