-- ==== Sys2Proof/Machine/Ops.lean ====
section
/-! DEFINITION. The named operations of the engine: memory through the bus primitives, the stack, the end of an
instruction, the fatal entry, entering and leaving an interrupt, the boundary check, reset, and fetching. -/

namespace Sys2Proof.Machine

open Sys2Proof

/-! ## Memory (20_memory.md) -/

/-- The byte listed for an address, or what an unlisted address reads as. -/
def lookup (cells : List Host.Cell) (a : Nat) : Byte :=
  match cells with
  | [] => Config.unlistedByte
  | c :: t => if c.1 = a then c.2 else lookup t a

/-- The list with one byte changed, in canonical form: addresses rising, no entry that an unlisted address reads as. -/
def store (cells : List Host.Cell) (a : Nat) (v : Byte) : List Host.Cell :=
  match cells with
  | [] => if v = Config.unlistedByte then [] else [(a, v)]
  | c :: t =>
    if c.1 < a then c :: store t a v
    else
      let after := if c.1 = a then t else c :: t
      if v = Config.unlistedByte then after else (a, v) :: after

/-- The canonical form of memory: addresses strictly rising and below `2^24`, and no entry equal to what an unlisted
address reads as. -/
def Memory.wf (m : Memory) : Bool :=
  decide (m.cells.Pairwise fun x y => x.1 < y.1) &&
    m.cells.all fun c => decide (c.1 < 2 ^ 24) && decide (c.2 ≠ Config.unlistedByte)

/-- `read8` (R74). -/
def read8 (m : Memory) (a : Addr) : BitVec 8 := lookup m.cells a.toNat

/-- `read16` (R74): little-endian, addresses modulo `2^24`. -/
def read16 (m : Memory) (a : Addr) : BitVec 16 := read8 m (a + 1#24) ++ read8 m a

/-- `read24` (R74, R92). -/
def read24 (m : Memory) (a : Addr) : BitVec 24 := read8 m (a + 2#24) ++ read8 m (a + 1#24) ++ read8 m a

/-- `read32` (R74). -/
def read32 (m : Memory) (a : Addr) : BitVec 32 :=
  read8 m (a + 3#24) ++ read8 m (a + 2#24) ++ read8 m (a + 1#24) ++ read8 m a

/-- `write8` (R74). -/
def write8 (m : Memory) (a : Addr) (v : BitVec 8) : Memory := ⟨store m.cells a.toNat v⟩

/-- `write16` (R74): the bytes little-endian, addresses modulo `2^24`. -/
def write16 (m : Memory) (a : Addr) (v : BitVec 16) : Memory :=
  write8 (write8 m a (v.extractLsb' 0 8)) (a + 1#24) (v.extractLsb' 8 8)

/-- `write32` (R74). -/
def write32 (m : Memory) (a : Addr) (v : BitVec 32) : Memory :=
  write16 (write16 m a (v.extractLsb' 0 16)) (a + 2#24) (v.extractLsb' 16 16)

/-- `MemRead(a, n)` for a data access of a width (R72, R79). -/
def memRead (w : Width) (m : Memory) (a : Addr) : Val :=
  match w with
  | .byte => (read8 m a).setWidth 32
  | .word => (read16 m a).setWidth 32
  | .long => read32 m a

/-- `MemWrite(a, n, v)` for a data access of a width (R73, R79). -/
def memWrite (w : Width) (m : Memory) (a : Addr) (v : Val) : Memory :=
  match w with
  | .byte => write8 m a (v.setWidth 8)
  | .word => write16 m a (v.setWidth 16)
  | .long => write32 m a v

/-- The addresses of an access of `n` bytes at `a`, modulo `2^24` (R74, R78). -/
def span (a : Addr) (n : Nat) : List Addr := (List.range n).map fun k => a + BitVec.ofNat 24 k

/-! ## The stack (43_data_movement.md R231, R232) -/

/-- The value of SP after a push of a width. -/
def pushedSp (w : Width) (s : State) : BitVec 32 := s.sp - BitVec.ofNat 32 w.bytes

/-- `Push(n, v)` (R231). -/
def push (w : Width) (v : Val) (s : State) : State :=
  { s with sp := pushedSp w s, mem := memWrite w s.mem (lowAddr (pushedSp w s)) v }

/-- The value `Pop(n)` returns (R232). -/
def popValue (w : Width) (s : State) : Val := memRead w s.mem (lowAddr s.sp)

/-- The state after `Pop(n)` (R232). -/
def popState (w : Width) (s : State) : State := { s with sp := s.sp + BitVec.ofNat 32 w.bytes }

/-! ## The end of an instruction (40_dispatcher.md R149, R150, R152) -/

/-- `(pc + len) mod 2^24`: the address of the next instruction (R149, 48_control_system.md R350). -/
def nextPc (s : State) (len : Nat) : Addr := s.pc + BitVec.ofNat 24 len

/-- The end of an instruction that is not a prefix: PC, CYC (`len + nacc`) and `STICKY <- IDLE`. -/
def complete (target : Addr) (len nacc : Nat) (s : State) : State :=
  { s with pc := target, cyc := s.cyc + len + nacc, sticky := .idle }

/-- The end of an instruction that names no target: PC advances by `len`. -/
def advance (len nacc : Nat) (s : State) : State := complete (nextPc s len) len nacc s

/-- The end of a prefix instruction (R152): PC advances, CYC grows, `STICKY <- ARMED(value, kind)`, `INHIBIT <- 1`. -/
def advanceArmed (value : BitVec 24) (kind : StickyKind) (len nacc : Nat) (s : State) : State :=
  { s with pc := nextPc s len, cyc := s.cyc + len + nacc, sticky := .armed value kind, inhibit := true }

/-! ## The fatal entry (60_exceptions.md R404) -/

/-- What `raise IllegalOpcode` and `raise IllegalAddressingMode` do: HALTED is set and FAULT records the kind, PC and first
byte; nothing else changes. -/
def fatalEntry (kind : FatalKind) (b0 : Byte) (s : State) : State :=
  { s with halted := true, fault := some ⟨kind, s.pc, b0⟩ }

/-! ## Interrupt entry and return (60_exceptions.md R412, R413, R417; 48_control_system.md R359, R360) -/

/-- The address of vector `v` (R413, 20_memory.md R84). -/
def vectorAddr (v : BitVec 8) (s : State) : Addr := lowAddr s.intb + 4#24 * v.setWidth 24

/-- The part that INT and interrupt entry share: push FLG, push the return address, clear I and set IPL where a level is
given, then load PC from the vector (R359, R412). -/
def enterVector (level : Option IntLevel) (ret : Addr) (v : BitVec 8) (s : State) : State :=
  let s1 := push .long (addrWord ret) (push .word (s.flg.setWidth 32) s)
  { s1 with flg := flagsIntEntry level s.flg, pc := lowAddr (read32 s1.mem (vectorAddr v s)) }

/-- Interrupt entry at a boundary (R412), with its `ack` (R414). CYC does not change. -/
def interruptEntry (r : Irq) (s : State) : State :=
  { enterVector (some r.level) s.pc r.vector s with acks := s.acks ++ [r] }

/-- The two pops and `FlagsLoad` of REIT (48_control_system.md R360), with the popped return address. -/
def leaveVector (s : State) : Addr × State :=
  let s1 := popState .long s
  let s2 := popState .word s1
  (lowAddr (popValue .long s), { s2 with flg := flagsLoad ((popValue .word s1).setWidth 16) })

/-! ## The boundary (40_dispatcher.md R154 to R156; 60_exceptions.md R411) -/

/-- The acceptance test of R411: I is 1 and the level exceeds IPL. -/
def accepts (r : Irq) (flg : BitVec 16) : Bool :=
  getFlag .i flg && decide (getIpl flg < r.level.bits)

/-- The IRQ sample the engine takes next (R60, R410): NONE when no sample is left. -/
def nextSample (s : State) : Option Irq :=
  match s.irq with
  | [] => none
  | q :: _ => q

/-- The boundary check: if INHIBIT is set it is cleared and nothing is sampled (R155); otherwise IRQ is sampled once and an
accepted request is entered (R156). -/
def boundary (s : State) : State :=
  if s.inhibit then { s with inhibit := false }
  else
    let s1 := { s with irq := s.irq.tail }
    match nextSample s with
    | some r => if accepts r s.flg then interruptEntry r s1 else s1
    | none => s1

/-! ## Reset (70_reset_and_hazards.md R440, R441) -/

/-- `reset()` from any state: memory, CYC, the IRQ samples and the `ack` log stay; PC is read from the reset vector. -/
def engineReset (s : State) : State :=
  { State.reset with
    pc := lowAddr (read32 s.mem 0xFFFFFC#24)
    cyc := s.cyc
    mem := s.mem
    irq := s.irq
    acks := s.acks }

/-- The harness drives IRQ (70_reset_and_hazards.md R457): one more sample to come. -/
def driveIrq (sample : Option Irq) (s : State) : State := { s with irq := s.irq ++ [sample] }

/-! ## Fetching (40_dispatcher.md R142, R143) -/

/-- The bytes from PC on, as many as the longest instruction has, addresses modulo `2^24` (R143). The decoder uses those
that belong to the instruction (notes/assumptions/9.md). -/
def fetchWindow (s : State) : List Byte := (span s.pc maxLength).map (read8 s.mem)

/-- Bytes stored from an address on, addresses modulo `2^24`. -/
def storeBytes (m : Memory) (a : Addr) : List Byte → Memory
  | [] => m
  | b :: t => storeBytes (write8 m a b) (a + 1#24) t

end Sys2Proof.Machine
end

