-- ==== Sys2Proof/Machine/Operands.lean ====
section
/-! DEFINITION. The register views (10_state.md R22 to R27), the Addressing-Mode Resolver (41_resolver.md) with its
accessors, and the setup of one, two or bit operands, which takes the fatal entry where the resolver raises
IllegalAddressingMode. -/

namespace Sys2Proof.Machine

open Sys2Proof

/-! ## Register views -/

/-- The register views of R24 (8 bits), R25 (16 bits) and R26 (32 bits). -/
inductive View where
  | r0l
  | r0h
  | r1l
  | r1h
  | r0
  | r1
  | r2
  | r3
  | a0w
  | a1w
  | r2r0
  | r3r1
  | a0
  | a1
deriving DecidableEq, Repr

/-- The width of a view. -/
def View.width : View → Width
  | .r0l => .byte
  | .r0h => .byte
  | .r1l => .byte
  | .r1h => .byte
  | .r0 => .word
  | .r1 => .word
  | .r2 => .word
  | .r3 => .word
  | .a0w => .word
  | .a1w => .word
  | .r2r0 => .long
  | .r3r1 => .long
  | .a0 => .long
  | .a1 => .long

/-- `x[NAME]`, zero-extended in the carrier (R24 to R26). -/
def View.read (v : View) (s : State) : Val :=
  match v with
  | .r0l => (s.r0.extractLsb' 0 8).setWidth 32
  | .r0h => (s.r0.extractLsb' 8 8).setWidth 32
  | .r1l => (s.r1.extractLsb' 0 8).setWidth 32
  | .r1h => (s.r1.extractLsb' 8 8).setWidth 32
  | .r0 => s.r0.setWidth 32
  | .r1 => s.r1.setWidth 32
  | .r2 => s.r2.setWidth 32
  | .r3 => s.r3.setWidth 32
  | .a0w => (s.a0.extractLsb' 0 16).setWidth 32
  | .a1w => (s.a1.extractLsb' 0 16).setWidth 32
  | .r2r0 => s.r2 ++ s.r0
  | .r3r1 => s.r3 ++ s.r1
  | .a0 => s.a0
  | .a1 => s.a1

/-- `x[NAME] <- x` (R24 to R26): the view's bits, and no bit outside the view (R23). -/
def View.write (v : View) (x : Val) (s : State) : State :=
  match v with
  | .r0l => { s with r0 := s.r0.extractLsb' 8 8 ++ x.extractLsb' 0 8 }
  | .r0h => { s with r0 := x.extractLsb' 0 8 ++ s.r0.extractLsb' 0 8 }
  | .r1l => { s with r1 := s.r1.extractLsb' 8 8 ++ x.extractLsb' 0 8 }
  | .r1h => { s with r1 := x.extractLsb' 0 8 ++ s.r1.extractLsb' 0 8 }
  | .r0 => { s with r0 := x.extractLsb' 0 16 }
  | .r1 => { s with r1 := x.extractLsb' 0 16 }
  | .r2 => { s with r2 := x.extractLsb' 0 16 }
  | .r3 => { s with r3 := x.extractLsb' 0 16 }
  | .a0w => { s with a0 := s.a0.extractLsb' 16 16 ++ x.extractLsb' 0 16 }
  | .a1w => { s with a1 := s.a1.extractLsb' 16 16 ++ x.extractLsb' 0 16 }
  | .r2r0 => { s with r2 := x.extractLsb' 16 16, r0 := x.extractLsb' 0 16 }
  | .r3r1 => { s with r3 := x.extractLsb' 16 16, r1 := x.extractLsb' 0 16 }
  | .a0 => { s with a0 := x }
  | .a1 => { s with a1 := x }

/-! ## Accessors (41_resolver.md R180 to R182) -/

/-- A value accessor: `reg(view, w)`, the width being the view's, or `mem(EA, w)` (R180). -/
inductive Acc where
  | reg (v : View)
  | mem (ea : Addr) (w : Width)
deriving DecidableEq, Repr

/-- The effective width of an accessor, `CTX.w[k]` (R174). -/
def Acc.width : Acc → Width
  | .reg v => v.width
  | .mem _ w => w

/-- The data bus calls of one `Get` or one `Set` (R181, R182): what it adds to `nacc`. -/
def Acc.calls : Acc → Nat
  | .reg _ => 0
  | .mem _ _ => 1

/-- `Get(acc)` (R181). -/
def Acc.get (acc : Acc) (s : State) : Val :=
  match acc with
  | .reg v => v.read s
  | .mem ea w => memRead w s.mem ea

/-- `Set(acc, x)` (R182). -/
def Acc.set (acc : Acc) (x : Val) (s : State) : State :=
  match acc with
  | .reg v => v.write x s
  | .mem ea w => { s with mem := memWrite w s.mem ea x }

/-- The addresses an accessor stores to: none for a register. -/
def Acc.span : Acc → List Addr
  | .reg _ => []
  | .mem ea w => Machine.span ea w.bytes

/-! ## Effective addresses (41_resolver.md R173, R177 to R179) -/

/-- `An`: the low 24 bits of an address register (R173, 10_state.md R28). -/
def baseAddr (a : AReg) (s : State) : Addr :=
  match a with
  | .a0 => lowAddr s.a0
  | .a1 => lowAddr s.a1

/-- `idx` (R179): the sticky value when it is armed with kind ADDR, else 0. -/
def index (s : State) : Addr :=
  match s.sticky with
  | .armed v .addr => v
  | .armed _ .bit => 0#24
  | .idle => 0#24

/-- The armed BIT index (R188), else 0. -/
def bitIndex (s : State) : Nat :=
  match s.sticky with
  | .armed v .bit => v.toNat
  | .armed _ .addr => 0
  | .idle => 0

/-- EA of the memory modes (R173), all sums modulo `2^24`; none for the register modes. -/
def effAddr (o : Opnd) (s : State) : Option Addr :=
  match o with
  | .dreg _ => none
  | .areg _ => none
  | .ind a => some (baseAddr a s + index s)
  | .dsp8 a d => some (baseAddr a s + d.signExtend 24 + index s)
  | .dsp16 a d => some (baseAddr a s + d.signExtend 24 + index s)
  | .dsp24 a d => some (baseAddr a s + d + index s)
  | .abs16 d => some (d.setWidth 24 + index s)
  | .abs24 d => some (d + index s)

/-- The view of a register mode at a width (R173, 10_state.md R27); none where there is none (R189) or the width must
first be promoted. -/
def regView (o : Opnd) (w : Width) : Option View :=
  match o, w with
  | .dreg .r0, .byte => some .r0l
  | .dreg .r1, .byte => some .r1l
  | .dreg .r2, .byte => some .r0h
  | .dreg .r3, .byte => some .r1h
  | .dreg .r0, .word => some .r0
  | .dreg .r1, .word => some .r1
  | .dreg .r2, .word => some .r2
  | .dreg .r3, .word => some .r3
  | .dreg .r0, .long => some .r2r0
  | .dreg .r1, .long => some .r3r1
  | .areg .a0, .word => some .a0w
  | .areg .a1, .word => some .a1w
  | .areg .a0, .long => some .a0
  | .areg .a1, .long => some .a1
  | _, _ => none

/-! ## The resolver (41_resolver.md R171) -/

/-- `LM_ALL` (30_encoding.md R128). -/
def lmAll : BitVec 16 := 0xFFFF#16
/-- `LM_L` (30_encoding.md R128). -/
def lmL : BitVec 16 := 0xFFF3#16
/-- `LM_PTR` (30_encoding.md R128). -/
def lmPtr : BitVec 16 := 0xFFC0#16
/-- `LM_BIT` (30_encoding.md R128). -/
def lmBit : BitVec 16 := 0xFFCF#16

/-- The legality mask of a value operand by its width: `LM_L` for 32 bits, `LM_ALL` otherwise (30_encoding.md R128). -/
def lmValue : Width → BitVec 16
  | .byte => lmAll
  | .word => lmAll
  | .long => lmL

/-- The legality test (R172): bit `mode` of the mask. -/
def legal (lm : BitVec 16) (o : Opnd) : Bool := lm.getLsbD o.mode.toNat

/-- May an 8-bit operand on an address register be promoted (R174), or is that flagged (R175)? -/
inductive Promote where
  | allow
  | forbid
deriving DecidableEq, Repr

/-- Promotion (R174, R175): 8 bits on an address register becomes 16, or fails where it is forbidden. -/
def promoted (o : Opnd) (w : Width) (p : Promote) : Option Width :=
  match o, w, p with
  | .areg _, .byte, .allow => some .word
  | .areg _, .byte, .forbid => none
  | _, w, _ => some w

/-- `Resolve` for a value operand (R171): legality, promotion, then the register view or the effective address. None is
`raise IllegalAddressingMode` with the operand's mode code. -/
def resolve (o : Opnd) (w : Width) (lm : BitVec 16) (p : Promote) (s : State) : Option Acc :=
  if legal lm o then
    match promoted o w p with
    | none => none
    | some w' =>
      match effAddr o s with
      | some ea => some (.mem ea w')
      | none => (regView o w').map .reg
  else none

/-- `Resolve` for a pointer operand (R171, R177, R183): the effective address. -/
def resolvePtr (o : Opnd) (lm : BitVec 16) (s : State) : Option Addr :=
  if legal lm o then effAddr o s else none

/-- The bit accessor (R188): the accessor of the byte and the bit number in it. `tot` is an integer
(notes/assumptions/8.md). -/
def resolveBit (o : Opnd) (bit : BitVec 3) (s : State) : Option (Acc × Nat) :=
  if legal lmBit o then
    match effAddr o s with
    | some ea =>
      let tot := bit.toNat + bitIndex s
      some (.mem (ea + BitVec.ofNat 24 (tot / 8)) .byte, tot % 8)
    | none => (regView o .byte).map fun v => (.reg v, bit.toNat)
  else none

/-! ## Setup (40_dispatcher.md R145) -/

/-- `raise IllegalAddressingMode(pc, b0, mode)` (R172, R404). -/
def raiseMode (b0 : Byte) (o : Opnd) (s : State) : Answer :=
  .next (fatalEntry (.illegalAddressingMode o.mode) b0 s)

/-- The setup of a value operand and then what follows it. -/
def withOpnd (b0 : Byte) (w : Width) (p : Promote) (o : Opnd) (s : State) (k : Acc → Answer) : Answer :=
  match resolve o w (lmValue w) p s with
  | some acc => k acc
  | none => raiseMode b0 o s

/-- The setup of a pointer operand and then what follows it. -/
def withPtr (b0 : Byte) (o : Opnd) (s : State) (k : Addr → Answer) : Answer :=
  match resolvePtr o lmPtr s with
  | some ea => k ea
  | none => raiseMode b0 o s

/-- The setup of a bit operand and then what follows it. -/
def withBit (b0 : Byte) (o : Opnd) (bit : BitVec 3) (s : State) (k : Acc → Nat → Answer) : Answer :=
  match resolveBit o bit s with
  | some p => k p.1 p.2
  | none => raiseMode b0 o s

end Sys2Proof.Machine
end

