-- ==== Sys2Proof/Machine/Shapes.lean ====
section
/-! DEFINITION. The shapes the meanings share: setup of the operands, execute, end of the instruction, with the operation
as a parameter (43_data_movement.md R230; 44_arithmetic.md R260; 45_logic_shift.md R290, R300). `nacc` follows the data
accesses the rule's pseudocode makes (40_dispatcher.md R150, 70_reset_and_hazards.md R455). -/

namespace Sys2Proof.Machine

open Sys2Proof

/-- An operation on two values: the operation width, `a` (the destination's old value), `b` (the source value) and FLG give
the result and the new FLG. -/
abbrev Binary := Width → Val → Val → BitVec 16 → Val × BitVec 16

/-- An operation on one value: the width, the value and FLG give the result and the new FLG. -/
abbrev Unary := Width → Val → BitVec 16 → Val × BitVec 16

/-! ## Format G2 -/

/-- Source read, destination read, destination written, flags (R260, R290). -/
def aluG2 (b0 : Byte) (w : Width) (f : Binary) (src dst : Opnd) (s : State) : Answer :=
  withOpnd b0 w .allow src s fun x => withOpnd b0 w .allow dst s fun y =>
    let q := f y.width (y.get s) (adj (x.get s) x.width y.width) s.flg
    .next (advance (2 + src.extLen + dst.extLen) (x.calls + 2 * y.calls) (y.set q.1 { s with flg := q.2 }))

/-- As `aluG2`, with nothing written back (CMP, TST: R267, R297). -/
def testG2 (b0 : Byte) (w : Width) (f : Binary) (src dst : Opnd) (s : State) : Answer :=
  withOpnd b0 w .allow src s fun x => withOpnd b0 w .allow dst s fun y =>
    let q := f y.width (y.get s) (adj (x.get s) x.width y.width) s.flg
    .next (advance (2 + src.extLen + dst.extLen) (x.calls + y.calls) { s with flg := q.2 })

/-- MOV (R233): the destination is not read. -/
def moveG2 (b0 : Byte) (w : Width) (src dst : Opnd) (s : State) : Answer :=
  withOpnd b0 w .allow src s fun x => withOpnd b0 w .allow dst s fun y =>
    let v := adj (x.get s) x.width y.width
    .next (advance (2 + src.extLen + dst.extLen) (x.calls + y.calls)
      (y.set v { s with flg := flagsLogic y.width v s.flg }))

/-- EXTS and EXTZ (R239, R240): the source at width `ws`, promotion forbidden, extended to the width `wd`. -/
def extendG2 (b0 : Byte) (ws wd : Width) (ext : Width → Val → Val) (src dst : Opnd) (s : State) : Answer :=
  withOpnd b0 ws .forbid src s fun x => withOpnd b0 wd .allow dst s fun y =>
    let r := trunc wd (ext ws (x.get s))
    .next (advance (2 + src.extLen + dst.extLen) (x.calls + y.calls)
      (y.set r { s with flg := flagsLogic wd r s.flg }))

/-! ## Format I: the immediate has the nominal size `w` and is brought to the destination's width (R260) -/

/-- Destination read and written, with an immediate as the source. -/
def aluImm (b0 : Byte) (w : Width) (f : Binary) (dst : Opnd) (imm : Val) (s : State) : Answer :=
  withOpnd b0 w .allow dst s fun y =>
    let q := f y.width (y.get s) (adj imm w y.width) s.flg
    .next (advance (2 + dst.extLen + w.bytes) (2 * y.calls) (y.set q.1 { s with flg := q.2 }))

/-- As `aluImm`, with nothing written back (CMP#, TST#: R268, R298). -/
def testImm (b0 : Byte) (w : Width) (f : Binary) (dst : Opnd) (imm : Val) (s : State) : Answer :=
  withOpnd b0 w .allow dst s fun y =>
    let q := f y.width (y.get s) (adj imm w y.width) s.flg
    .next (advance (2 + dst.extLen + w.bytes) y.calls { s with flg := q.2 })

/-- MOV# (R234): the destination is not read. -/
def moveImm (b0 : Byte) (w : Width) (dst : Opnd) (imm : Val) (s : State) : Answer :=
  withOpnd b0 w .allow dst s fun y =>
    let v := adj imm w y.width
    .next (advance (2 + dst.extLen + w.bytes) y.calls (y.set v { s with flg := flagsLogic y.width v s.flg }))

/-! ## Formats Q and G1 -/

/-- One operand read and written (R269, R270, R299, R300). -/
def aluOne (b0 : Byte) (w : Width) (p : Promote) (f : Unary) (dst : Opnd) (s : State) : Answer :=
  withOpnd b0 w p dst s fun y =>
    let q := f y.width (y.get s) s.flg
    .next (advance (2 + dst.extLen) (2 * y.calls) (y.set q.1 { s with flg := q.2 }))

/-- One operand only read (PUSH, LDC: R236, R245): `f` is the effect, given the value read. -/
def readOne (b0 : Byte) (w : Width) (src : Opnd) (nacc : Nat) (f : Val → State → State) (s : State) : Answer :=
  withOpnd b0 w .forbid src s fun x =>
    .next (advance (2 + src.extLen) (x.calls + nacc) (f (x.get s) s))

/-- One operand only written (POP, STC, SCcnd: R237, R246, R326): the value, and the state it is written in. -/
def writeOne (b0 : Byte) (w : Width) (dst : Opnd) (nacc : Nat) (v : Val) (s1 : State) (s : State) : Answer :=
  withOpnd b0 w .forbid dst s fun y =>
    .next (advance (2 + dst.extLen) (y.calls + nacc) (y.set v s1))

/-! ## Bit operands (46_bit.md R320) -/

/-- The byte of a bit operand read and written: `f` gives its new value from the old one and the bit number. -/
def bitWrite (b0 : Byte) (bit : BitVec 3) (f : Val → Nat → Val) (dst : Opnd) (s : State) : Answer :=
  withBit b0 dst bit s fun acc k =>
    .next (advance (2 + dst.extLen) (2 * acc.calls) (acc.set (f (acc.get s) k) s))

/-! ## Prefixes (47_prefix.md R349) -/

/-- A prefix instruction: the source value, unsigned, times the scale, modulo `2^24`, armed with a kind. -/
def prefixOne (b0 : Byte) (w : Width) (scale : BitVec 24) (kind : StickyKind) (src : Opnd) (s : State) : Answer :=
  withOpnd b0 w .allow src s fun x =>
    .next (advanceArmed ((x.get s).setWidth 24 * scale) kind (2 + src.extLen) x.calls s)

end Sys2Proof.Machine
end

