-- ==== Sys2Proof/Machine/Arith.lean ====
section
/-! DEFINITION. The integer arithmetic instructions (44_arithmetic.md R260 to R270). -/

namespace Sys2Proof.Machine

open Sys2Proof

/-! ## The operations, at the operation width -/

/-- `a + b` modulo `2^w` (R261). -/
def addOp : Binary := fun w a b flg =>
  let r := trunc w (a + b)
  (r, flagsArith addTab w a b r flg)

/-- `a + b + C` modulo `2^w` (R263). -/
def adcOp : Binary := fun w a b flg =>
  let r := trunc w (a + b + (if getFlag .c flg then 1#32 else 0#32))
  (r, flagsArith addTab w a b r flg)

/-- `a - b` modulo `2^w` (R264). -/
def subOp : Binary := fun w a b flg =>
  let r := trunc w (a - b)
  (r, flagsArith subTab w a b r flg)

/-- `a - b - (1 - C)` modulo `2^w` (R266): the borrow-in is NOT C. -/
def sbbOp : Binary := fun w a b flg =>
  let r := trunc w (a - b - (if getFlag .c flg then 0#32 else 1#32))
  (r, flagsArith subTab w a b r flg)

/-- `a` plus the sign-extended 4-bit constant (R269, 30_encoding.md R121 (b)). -/
def addqOp (imm : BitVec 4) : Unary := fun w a flg => addOp w a (trunc w (imm.signExtend 32)) flg

/-- `0 - a` (R270): operand 1 is the constant 0. -/
def negOp : Unary := fun w a flg => subOp w 0#32 a flg

/-! ## The instructions -/

/-- `ADD.B` (R261). -/
def execAddB (src : Opnd) (dst : Opnd) (s : State) : Answer :=
  aluG2 0x14#8 .byte addOp src dst s

/-- `ADD.W` (R261). -/
def execAddW (src : Opnd) (dst : Opnd) (s : State) : Answer :=
  aluG2 0x15#8 .word addOp src dst s

/-- `ADD.L` (R261). -/
def execAddL (src : Opnd) (dst : Opnd) (s : State) : Answer :=
  aluG2 0x16#8 .long addOp src dst s

/-- `ADC.B` (R263). -/
def execAdcB (src : Opnd) (dst : Opnd) (s : State) : Answer :=
  aluG2 0x18#8 .byte adcOp src dst s

/-- `ADC.W` (R263). -/
def execAdcW (src : Opnd) (dst : Opnd) (s : State) : Answer :=
  aluG2 0x19#8 .word adcOp src dst s

/-- `ADC.L` (R263). -/
def execAdcL (src : Opnd) (dst : Opnd) (s : State) : Answer :=
  aluG2 0x1A#8 .long adcOp src dst s

/-- `SUB.B` (R264). -/
def execSubB (src : Opnd) (dst : Opnd) (s : State) : Answer :=
  aluG2 0x1C#8 .byte subOp src dst s

/-- `SUB.W` (R264). -/
def execSubW (src : Opnd) (dst : Opnd) (s : State) : Answer :=
  aluG2 0x1D#8 .word subOp src dst s

/-- `SUB.L` (R264). -/
def execSubL (src : Opnd) (dst : Opnd) (s : State) : Answer :=
  aluG2 0x1E#8 .long subOp src dst s

/-- `SBB.B` (R266). -/
def execSbbB (src : Opnd) (dst : Opnd) (s : State) : Answer :=
  aluG2 0x20#8 .byte sbbOp src dst s

/-- `SBB.W` (R266). -/
def execSbbW (src : Opnd) (dst : Opnd) (s : State) : Answer :=
  aluG2 0x21#8 .word sbbOp src dst s

/-- `SBB.L` (R266). -/
def execSbbL (src : Opnd) (dst : Opnd) (s : State) : Answer :=
  aluG2 0x22#8 .long sbbOp src dst s

/-- `CMP.B` (R267). -/
def execCmpB (src : Opnd) (dst : Opnd) (s : State) : Answer :=
  testG2 0x24#8 .byte subOp src dst s

/-- `CMP.W` (R267). -/
def execCmpW (src : Opnd) (dst : Opnd) (s : State) : Answer :=
  testG2 0x25#8 .word subOp src dst s

/-- `CMP.L` (R267). -/
def execCmpL (src : Opnd) (dst : Opnd) (s : State) : Answer :=
  testG2 0x26#8 .long subOp src dst s

/-- `ADD.B #imm` (R262). -/
def execAddBImm (dst : Opnd) (imm : BitVec 8) (s : State) : Answer :=
  aluImm 0x54#8 .byte addOp dst (imm.setWidth 32) s

/-- `ADD.W #imm` (R262). -/
def execAddWImm (dst : Opnd) (imm : BitVec 16) (s : State) : Answer :=
  aluImm 0x55#8 .word addOp dst (imm.setWidth 32) s

/-- `ADD.L #imm` (R262). -/
def execAddLImm (dst : Opnd) (imm : BitVec 32) (s : State) : Answer :=
  aluImm 0x56#8 .long addOp dst imm s

/-- `SUB.B #imm` (R265). -/
def execSubBImm (dst : Opnd) (imm : BitVec 8) (s : State) : Answer :=
  aluImm 0x58#8 .byte subOp dst (imm.setWidth 32) s

/-- `SUB.W #imm` (R265). -/
def execSubWImm (dst : Opnd) (imm : BitVec 16) (s : State) : Answer :=
  aluImm 0x59#8 .word subOp dst (imm.setWidth 32) s

/-- `SUB.L #imm` (R265). -/
def execSubLImm (dst : Opnd) (imm : BitVec 32) (s : State) : Answer :=
  aluImm 0x5A#8 .long subOp dst imm s

/-- `CMP.B #imm` (R268). -/
def execCmpBImm (dst : Opnd) (imm : BitVec 8) (s : State) : Answer :=
  testImm 0x5C#8 .byte subOp dst (imm.setWidth 32) s

/-- `CMP.W #imm` (R268). -/
def execCmpWImm (dst : Opnd) (imm : BitVec 16) (s : State) : Answer :=
  testImm 0x5D#8 .word subOp dst (imm.setWidth 32) s

/-- `CMP.L #imm` (R268). -/
def execCmpLImm (dst : Opnd) (imm : BitVec 32) (s : State) : Answer :=
  testImm 0x5E#8 .long subOp dst imm s

/-- `ADDQ.B` (R269). -/
def execAddqB (imm : BitVec 4) (dst : Opnd) (s : State) : Answer :=
  aluOne 0x70#8 .byte .allow (addqOp imm) dst s

/-- `ADDQ.W` (R269). -/
def execAddqW (imm : BitVec 4) (dst : Opnd) (s : State) : Answer :=
  aluOne 0x71#8 .word .allow (addqOp imm) dst s

/-- `ADDQ.L` (R269). -/
def execAddqL (imm : BitVec 4) (dst : Opnd) (s : State) : Answer :=
  aluOne 0x72#8 .long .allow (addqOp imm) dst s

/-- `NEG.B` (R270). -/
def execNegB (dst : Opnd) (s : State) : Answer :=
  aluOne 0x8C#8 .byte .allow negOp dst s

/-- `NEG.W` (R270). -/
def execNegW (dst : Opnd) (s : State) : Answer :=
  aluOne 0x8D#8 .word .allow negOp dst s

/-- `NEG.L` (R270). -/
def execNegL (dst : Opnd) (s : State) : Answer :=
  aluOne 0x8E#8 .long .allow negOp dst s

end Sys2Proof.Machine
end

