-- ==== Sys2Proof/Machine/Bit.lean ====
section
/-! DEFINITION. The bit and condition-store instructions (46_bit.md). -/

namespace Sys2Proof.Machine

open Sys2Proof

/-- `v` with bit `k` replaced by `t` (41_resolver.md R188). -/
def putBit (t : Bool) (v : Val) (k : Nat) : Val :=
  if t then v ||| (1#32 <<< k) else v &&& ~~~(1#32 <<< k)

/-- `BSET` (R321). -/
def execBset (bit : BitVec 3) (dst : Opnd) (s : State) : Answer :=
  bitWrite (0x16#5 ++ bit) bit (putBit true) dst s

/-- `BCLR` (R322). -/
def execBclr (bit : BitVec 3) (dst : Opnd) (s : State) : Answer :=
  bitWrite (0x17#5 ++ bit) bit (putBit false) dst s

/-- `BNOT` (R323). -/
def execBnot (bit : BitVec 3) (dst : Opnd) (s : State) : Answer :=
  bitWrite (0x18#5 ++ bit) bit (fun v k => v ^^^ (1#32 <<< k)) dst s

/-- `BTST` (R324: Z is NOT the bit, S is 0). -/
def execBtst (bit : BitVec 3) (src : Opnd) (s : State) : Answer :=
  withBit (0x19#5 ++ bit) src bit s fun acc k =>
    let t := if (acc.get s).getLsbD k then 1#32 else 0#32
    .next (advance (2 + src.extLen) acc.calls { s with flg := flagsLogic .byte t s.flg })

/-- `BMcnd` (R325). -/
def execBmCnd (bit : BitVec 3) (c : Cnd) (dst : Opnd) (s : State) : Answer :=
  bitWrite (0x1A#5 ++ bit) bit (putBit (condHolds c s.flg)) dst s

/-- `SCcnd` (R326). -/
def execScCnd (c : Cnd) (dst : Opnd) (s : State) : Answer :=
  writeOne 0xA6#8 .word dst 0 (if condHolds c s.flg then 1#32 else 0#32) s s

end Sys2Proof.Machine
end

