-- ==== Sys2Proof/Machine/Control.lean ====
section
/-! DEFINITION. The control transfer and system instructions (48_control_system.md). -/

namespace Sys2Proof.Machine

open Sys2Proof

/-- The target of a relative transfer: the next instruction plus the signed displacement (R350). -/
def relTarget {n : Nat} (len : Nat) (rel : BitVec n) (s : State) : Addr := nextPc s len + rel.signExtend 24

/-- `FlagBit(f, t)` as an instruction of one byte (R361, R362; 42_flags_conditions.md R208). -/
def flagBit (f : Flag) (t : Bool) (s : State) : Answer :=
  .next (advance 1 0 { s with flg := setFlag f t s.flg })

/-- `Jcnd` (R351). -/
def execJCnd (c : Cnd) (rel : BitVec 8) (s : State) : Answer :=
  .next (complete (if condHolds c s.flg then relTarget 2 rel s else nextPc s 2) 2 0 s)

/-- `JMP.W` (R352). -/
def execJmpW (rel : BitVec 16) (s : State) : Answer :=
  .next (complete (relTarget 3 rel s) 3 0 s)

/-- `JMP.A` (R353). -/
def execJmpA (target : Addr) (s : State) : Answer :=
  .next (complete target 4 0 s)

/-- `JMPI` (R354). -/
def execJmpi (src : Opnd) (s : State) : Answer :=
  withPtr 0x99#8 src s fun ea =>
    .next (complete (lowAddr (read32 s.mem ea)) (2 + src.extLen) 1 s)

/-- `JSR.W` (R355). -/
def execJsrW (rel : BitVec 16) (s : State) : Answer :=
  .next (complete (relTarget 3 rel s) 3 1 (push .long (addrWord (nextPc s 3)) s))

/-- `JSR.A` (R356). -/
def execJsrA (target : Addr) (s : State) : Answer :=
  .next (complete target 4 1 (push .long (addrWord (nextPc s 4)) s))

/-- `JSRI` (R357: the table entry is read before the push). -/
def execJsri (src : Opnd) (s : State) : Answer :=
  withPtr 0x9A#8 src s fun ea =>
    .next (complete (lowAddr (read32 s.mem ea)) (2 + src.extLen) 2
      (push .long (addrWord (nextPc s (2 + src.extLen))) s))

/-- `RTS` (R358). -/
def execRts (s : State) : Answer :=
  .next (complete (lowAddr (popValue .long s)) 1 1 (popState .long s))

/-- `INT` (R359). -/
def execInt (vector : BitVec 8) (s : State) : Answer :=
  let s1 := enterVector none (nextPc s 2) vector s
  .next (complete s1.pc 2 3 s1)

/-- `REIT` (R360). -/
def execReit (s : State) : Answer :=
  let p := leaveVector s
  .next (complete p.1 1 2 p.2)

/-- `FSET C` (R361). -/
def execFsetC (s : State) : Answer :=
  flagBit .c true s

/-- `FSET Z` (R361). -/
def execFsetZ (s : State) : Answer :=
  flagBit .z true s

/-- `FSET S` (R361). -/
def execFsetS (s : State) : Answer :=
  flagBit .s true s

/-- `FSET O` (R361). -/
def execFsetO (s : State) : Answer :=
  flagBit .o true s

/-- `FSET I` (R361). -/
def execFsetI (s : State) : Answer :=
  flagBit .i true s

/-- `FCLR C` (R362). -/
def execFclrC (s : State) : Answer :=
  flagBit .c false s

/-- `FCLR Z` (R362). -/
def execFclrZ (s : State) : Answer :=
  flagBit .z false s

/-- `FCLR S` (R362). -/
def execFclrS (s : State) : Answer :=
  flagBit .s false s

/-- `FCLR O` (R362). -/
def execFclrO (s : State) : Answer :=
  flagBit .o false s

/-- `FCLR I` (R362). -/
def execFclrI (s : State) : Answer :=
  flagBit .i false s

/-- `NOP` (R363). -/
def execNop (s : State) : Answer :=
  .next (advance 1 0 s)

end Sys2Proof.Machine
end

