-- ==== Sys2Proof/Machine/Decimal.lean ====
section
/-! DEFINITION. The decimal instructions DADD and DSUB (44_arithmetic.md R271 to R274). -/

namespace Sys2Proof.Machine

open Sys2Proof

/-- Is every one of the low `n` digits of a value at most 9 (R271)? -/
def isBcd : Nat → Nat → Bool
  | 0, _ => true
  | n + 1, a => decide (a % 16 ≤ 9) && isBcd n (a / 16)

/-- `BcdAdd` over `n` digits with carry-in `k` (R273): the result and the decimal carry out. -/
def bcdAdd : Nat → Nat → Nat → Nat → Nat × Nat
  | 0, _, _, k => (0, k)
  | n + 1, a, b, k =>
    let d := a % 16 + b % 16 + k
    let p := if d > 9 then (d - 10, 1) else (d, 0)
    let r := bcdAdd n (a / 16) (b / 16) p.2
    (p.1 + 16 * r.1, r.2)

/-- `BcdSub` over `n` digits with borrow-in `k` (R273): the result and the decimal borrow out. -/
def bcdSub : Nat → Nat → Nat → Nat → Nat × Nat
  | 0, _, _, k => (0, k)
  | n + 1, a, b, k =>
    let p := if a % 16 < b % 16 + k then (a % 16 + 10 - (b % 16 + k), 1) else (a % 16 - (b % 16 + k), 0)
    let r := bcdSub n (a / 16) (b / 16) p.2
    (p.1 + 16 * r.1, r.2)

/-- The number of decimal digits of a width (R273). -/
def bcdDigits (w : Width) : Nat := w.bits / 4

/-- Are both operands valid at the width (R271)? -/
def bcdValid (w : Width) (a b : Val) : Bool :=
  isBcd (bcdDigits w) a.toNat && isBcd (bcdDigits w) b.toNat

/-- The result and the C of a decimal operation: R273 on valid operands (C of DSUB is NOT the borrow), the free value
`BcdNonStd` otherwise (R274). -/
def decimalOp (op : DecimalOp) (w : Width) (a b : Val) : Val × Bool :=
  if bcdValid w a b then
    match op with
    | .dadd =>
      let r := bcdAdd (bcdDigits w) a.toNat b.toNat 0
      (BitVec.ofNat 32 r.1, r.2 == 1)
    | .dsub =>
      let r := bcdSub (bcdDigits w) a.toNat b.toNat 0
      (BitVec.ofNat 32 r.1, r.2 == 0)
  else
    let q := Config.bcdNonStd op w a b
    (trunc w q.1, q.2)

/-- DADD and DSUB (R271, R272): DIAG.bcd is set where an operand is not valid (R425), and C, Z, S are written. -/
def decimalG2 (b0 : Byte) (w : Width) (op : DecimalOp) (src dst : Opnd) (s : State) : Answer :=
  withOpnd b0 w .forbid src s fun x => withOpnd b0 w .forbid dst s fun y =>
    let a := y.get s
    let b := x.get s
    let q := decimalOp op w a b
    let s1 := { s with flg := flagsBcd w q.1 q.2 s.flg, diagBcd := s.diagBcd || !bcdValid w a b }
    .next (advance (2 + src.extLen + dst.extLen) (x.calls + 2 * y.calls) (y.set q.1 s1))

/-- `DADD.B` (R271). -/
def execDaddB (src : Opnd) (dst : Opnd) (s : State) : Answer :=
  decimalG2 0x38#8 .byte .dadd src dst s

/-- `DADD.W` (R271). -/
def execDaddW (src : Opnd) (dst : Opnd) (s : State) : Answer :=
  decimalG2 0x39#8 .word .dadd src dst s

/-- `DSUB.B` (R272). -/
def execDsubB (src : Opnd) (dst : Opnd) (s : State) : Answer :=
  decimalG2 0x3C#8 .byte .dsub src dst s

/-- `DSUB.W` (R272). -/
def execDsubW (src : Opnd) (dst : Opnd) (s : State) : Answer :=
  decimalG2 0x3D#8 .word .dsub src dst s

end Sys2Proof.Machine
end

