-- ==== Sys2Proof/Machine/Index.lean ====
section
/-! DEFINITION. The prefix instructions INDEXB, INDEXW, INDEXL and BITINDEX (47_prefix.md). -/

namespace Sys2Proof.Machine

open Sys2Proof

/-- `INDEXB.B` (R342). -/
def execIndexbB (src : Opnd) (s : State) : Answer :=
  prefixOne 0x9C#8 .byte 1#24 .addr src s

/-- `INDEXB.W` (R342). -/
def execIndexbW (src : Opnd) (s : State) : Answer :=
  prefixOne 0x9D#8 .word 1#24 .addr src s

/-- `INDEXW.B` (R343). -/
def execIndexwB (src : Opnd) (s : State) : Answer :=
  prefixOne 0x9E#8 .byte 2#24 .addr src s

/-- `INDEXW.W` (R343). -/
def execIndexwW (src : Opnd) (s : State) : Answer :=
  prefixOne 0x9F#8 .word 2#24 .addr src s

/-- `INDEXL.B` (R344). -/
def execIndexlB (src : Opnd) (s : State) : Answer :=
  prefixOne 0xA0#8 .byte 4#24 .addr src s

/-- `INDEXL.W` (R344). -/
def execIndexlW (src : Opnd) (s : State) : Answer :=
  prefixOne 0xA1#8 .word 4#24 .addr src s

/-- `BITINDEX.B` (R345). -/
def execBitindexB (src : Opnd) (s : State) : Answer :=
  prefixOne 0xA2#8 .byte 1#24 .bit src s

/-- `BITINDEX.W` (R345). -/
def execBitindexW (src : Opnd) (s : State) : Answer :=
  prefixOne 0xA3#8 .word 1#24 .bit src s

end Sys2Proof.Machine
end

