-- ==== Sys2Proof/Machine/Logic.lean ====
section
/-! DEFINITION. The logical instructions (45_logic_shift.md R290 to R299). -/

namespace Sys2Proof.Machine

open Sys2Proof

/-- `a AND b` (R291). -/
def andOp : Binary := fun w a b flg => (a &&& b, flagsLogic w (a &&& b) flg)

/-- `a OR b` (R293). -/
def orOp : Binary := fun w a b flg => (a ||| b, flagsLogic w (a ||| b) flg)

/-- `a XOR b` (R295). -/
def xorOp : Binary := fun w a b flg => (a ^^^ b, flagsLogic w (a ^^^ b) flg)

/-- `(NOT a) AND mask(w)` (R299). -/
def notOp : Unary := fun w a flg => (trunc w (~~~a), flagsLogic w (trunc w (~~~a)) flg)

/-- `AND.B` (R291). -/
def execAndB (src : Opnd) (dst : Opnd) (s : State) : Answer :=
  aluG2 0x28#8 .byte andOp src dst s

/-- `AND.W` (R291). -/
def execAndW (src : Opnd) (dst : Opnd) (s : State) : Answer :=
  aluG2 0x29#8 .word andOp src dst s

/-- `AND.L` (R291). -/
def execAndL (src : Opnd) (dst : Opnd) (s : State) : Answer :=
  aluG2 0x2A#8 .long andOp src dst s

/-- `OR.B` (R293). -/
def execOrB (src : Opnd) (dst : Opnd) (s : State) : Answer :=
  aluG2 0x2C#8 .byte orOp src dst s

/-- `OR.W` (R293). -/
def execOrW (src : Opnd) (dst : Opnd) (s : State) : Answer :=
  aluG2 0x2D#8 .word orOp src dst s

/-- `OR.L` (R293). -/
def execOrL (src : Opnd) (dst : Opnd) (s : State) : Answer :=
  aluG2 0x2E#8 .long orOp src dst s

/-- `XOR.B` (R295). -/
def execXorB (src : Opnd) (dst : Opnd) (s : State) : Answer :=
  aluG2 0x30#8 .byte xorOp src dst s

/-- `XOR.W` (R295). -/
def execXorW (src : Opnd) (dst : Opnd) (s : State) : Answer :=
  aluG2 0x31#8 .word xorOp src dst s

/-- `XOR.L` (R295). -/
def execXorL (src : Opnd) (dst : Opnd) (s : State) : Answer :=
  aluG2 0x32#8 .long xorOp src dst s

/-- `TST.B` (R297). -/
def execTstB (src : Opnd) (dst : Opnd) (s : State) : Answer :=
  testG2 0x34#8 .byte andOp src dst s

/-- `TST.W` (R297). -/
def execTstW (src : Opnd) (dst : Opnd) (s : State) : Answer :=
  testG2 0x35#8 .word andOp src dst s

/-- `TST.L` (R297). -/
def execTstL (src : Opnd) (dst : Opnd) (s : State) : Answer :=
  testG2 0x36#8 .long andOp src dst s

/-- `AND.B #imm` (R292). -/
def execAndBImm (dst : Opnd) (imm : BitVec 8) (s : State) : Answer :=
  aluImm 0x60#8 .byte andOp dst (imm.setWidth 32) s

/-- `AND.W #imm` (R292). -/
def execAndWImm (dst : Opnd) (imm : BitVec 16) (s : State) : Answer :=
  aluImm 0x61#8 .word andOp dst (imm.setWidth 32) s

/-- `AND.L #imm` (R292). -/
def execAndLImm (dst : Opnd) (imm : BitVec 32) (s : State) : Answer :=
  aluImm 0x62#8 .long andOp dst imm s

/-- `OR.B #imm` (R294). -/
def execOrBImm (dst : Opnd) (imm : BitVec 8) (s : State) : Answer :=
  aluImm 0x64#8 .byte orOp dst (imm.setWidth 32) s

/-- `OR.W #imm` (R294). -/
def execOrWImm (dst : Opnd) (imm : BitVec 16) (s : State) : Answer :=
  aluImm 0x65#8 .word orOp dst (imm.setWidth 32) s

/-- `OR.L #imm` (R294). -/
def execOrLImm (dst : Opnd) (imm : BitVec 32) (s : State) : Answer :=
  aluImm 0x66#8 .long orOp dst imm s

/-- `XOR.B #imm` (R296). -/
def execXorBImm (dst : Opnd) (imm : BitVec 8) (s : State) : Answer :=
  aluImm 0x68#8 .byte xorOp dst (imm.setWidth 32) s

/-- `XOR.W #imm` (R296). -/
def execXorWImm (dst : Opnd) (imm : BitVec 16) (s : State) : Answer :=
  aluImm 0x69#8 .word xorOp dst (imm.setWidth 32) s

/-- `XOR.L #imm` (R296). -/
def execXorLImm (dst : Opnd) (imm : BitVec 32) (s : State) : Answer :=
  aluImm 0x6A#8 .long xorOp dst imm s

/-- `TST.B #imm` (R298). -/
def execTstBImm (dst : Opnd) (imm : BitVec 8) (s : State) : Answer :=
  testImm 0x6C#8 .byte andOp dst (imm.setWidth 32) s

/-- `TST.W #imm` (R298). -/
def execTstWImm (dst : Opnd) (imm : BitVec 16) (s : State) : Answer :=
  testImm 0x6D#8 .word andOp dst (imm.setWidth 32) s

/-- `TST.L #imm` (R298). -/
def execTstLImm (dst : Opnd) (imm : BitVec 32) (s : State) : Answer :=
  testImm 0x6E#8 .long andOp dst imm s

/-- `NOT.B` (R299). -/
def execNotB (dst : Opnd) (s : State) : Answer :=
  aluOne 0x88#8 .byte .allow notOp dst s

/-- `NOT.W` (R299). -/
def execNotW (dst : Opnd) (s : State) : Answer :=
  aluOne 0x89#8 .word .allow notOp dst s

/-- `NOT.L` (R299). -/
def execNotL (dst : Opnd) (s : State) : Answer :=
  aluOne 0x8A#8 .long .allow notOp dst s

end Sys2Proof.Machine
end

