-- ==== Sys2Proof/Machine/Moves.lean ====
section
/-! DEFINITION. The data movement instructions MOV, MOV#, LEA, EXTS and EXTZ (43_data_movement.md). -/

namespace Sys2Proof.Machine

open Sys2Proof

/-- `MOV.B` (R233). -/
def execMovB (src : Opnd) (dst : Opnd) (s : State) : Answer :=
  moveG2 0x10#8 .byte src dst s

/-- `MOV.W` (R233). -/
def execMovW (src : Opnd) (dst : Opnd) (s : State) : Answer :=
  moveG2 0x11#8 .word src dst s

/-- `MOV.L` (R233). -/
def execMovL (src : Opnd) (dst : Opnd) (s : State) : Answer :=
  moveG2 0x12#8 .long src dst s

/-- `MOV.B #imm` (R234). -/
def execMovBImm (dst : Opnd) (imm : BitVec 8) (s : State) : Answer :=
  moveImm 0x50#8 .byte dst (imm.setWidth 32) s

/-- `MOV.W #imm` (R234). -/
def execMovWImm (dst : Opnd) (imm : BitVec 16) (s : State) : Answer :=
  moveImm 0x51#8 .word dst (imm.setWidth 32) s

/-- `MOV.L #imm` (R234). -/
def execMovLImm (dst : Opnd) (imm : BitVec 32) (s : State) : Answer :=
  moveImm 0x52#8 .long dst imm s

/-- `LEA` (R235: the effective address, zero-extended; memory at it is not accessed). -/
def execLea (src : Opnd) (dst : Opnd) (s : State) : Answer :=
  withPtr 0x48#8 src s fun ea => withOpnd 0x48#8 .long .allow dst s fun y =>
    .next (advance (2 + src.extLen + dst.extLen) y.calls (y.set (addrWord ea) s))

/-- `EXTS.B` (R239). -/
def execExtsB (src : Opnd) (dst : Opnd) (s : State) : Answer :=
  extendG2 0x40#8 .byte .word sext src dst s

/-- `EXTS.W` (R239). -/
def execExtsW (src : Opnd) (dst : Opnd) (s : State) : Answer :=
  extendG2 0x41#8 .word .long sext src dst s

/-- `EXTZ.B` (R240). -/
def execExtzB (src : Opnd) (dst : Opnd) (s : State) : Answer :=
  extendG2 0x44#8 .byte .word trunc src dst s

/-- `EXTZ.W` (R240). -/
def execExtzW (src : Opnd) (dst : Opnd) (s : State) : Answer :=
  extendG2 0x45#8 .word .long trunc src dst s

end Sys2Proof.Machine
end

