-- ==== Sys2Proof/Machine/Shift.lean ====
section
/-! DEFINITION. The shift and rotate instructions (45_logic_shift.md R300 to R305). -/

namespace Sys2Proof.Machine

open Sys2Proof

/-- The count of a shift or rotate: the embedded field plus 1 (R300). -/
def count (n : BitVec 4) : Nat := n.toNat + 1

/-- `(a * 2^n) mod 2^w` (R301). -/
def shlVal (n : Nat) (w : Width) (a : Val) : Val := trunc w (a <<< n)

/-- `floor(a / 2^n)` (R302). -/
def shrVal (n : Nat) (_w : Width) (a : Val) : Val := a >>> n

/-- `floor(sext_w(a) / 2^n) mod 2^w` (R303). -/
def sarVal (n : Nat) (w : Width) (a : Val) : Val := trunc w ((sext w a).sshiftRight n)

/-- Rotate left by `k = n mod w` (R304). -/
def rolVal (n : Nat) (w : Width) (a : Val) : Val :=
  let k := n % w.bits
  if k = 0 then a else trunc w (a <<< k) ||| (a >>> (w.bits - k))

/-- Rotate right by `k = n mod w` (R305). -/
def rorVal (n : Nat) (w : Width) (a : Val) : Val :=
  let k := n % w.bits
  if k = 0 then a else (a >>> k) ||| trunc w (a <<< (w.bits - k))

/-- A shift or rotate with its flags: Z and S from the result, C and O unchanged (R300). -/
def shiftOp (f : Nat → Width → Val → Val) (n : BitVec 4) : Unary := fun w a flg =>
  let r := f (count n) w a
  (r, flagsLogic w r flg)

/-- `SHL.B` (R301). -/
def execShlB (n : BitVec 4) (dst : Opnd) (s : State) : Answer :=
  aluOne 0x74#8 .byte .forbid (shiftOp shlVal n) dst s

/-- `SHL.W` (R301). -/
def execShlW (n : BitVec 4) (dst : Opnd) (s : State) : Answer :=
  aluOne 0x75#8 .word .forbid (shiftOp shlVal n) dst s

/-- `SHL.L` (R301). -/
def execShlL (n : BitVec 4) (dst : Opnd) (s : State) : Answer :=
  aluOne 0x76#8 .long .forbid (shiftOp shlVal n) dst s

/-- `SHR.B` (R302). -/
def execShrB (n : BitVec 4) (dst : Opnd) (s : State) : Answer :=
  aluOne 0x78#8 .byte .forbid (shiftOp shrVal n) dst s

/-- `SHR.W` (R302). -/
def execShrW (n : BitVec 4) (dst : Opnd) (s : State) : Answer :=
  aluOne 0x79#8 .word .forbid (shiftOp shrVal n) dst s

/-- `SHR.L` (R302). -/
def execShrL (n : BitVec 4) (dst : Opnd) (s : State) : Answer :=
  aluOne 0x7A#8 .long .forbid (shiftOp shrVal n) dst s

/-- `SAR.B` (R303). -/
def execSarB (n : BitVec 4) (dst : Opnd) (s : State) : Answer :=
  aluOne 0x7C#8 .byte .forbid (shiftOp sarVal n) dst s

/-- `SAR.W` (R303). -/
def execSarW (n : BitVec 4) (dst : Opnd) (s : State) : Answer :=
  aluOne 0x7D#8 .word .forbid (shiftOp sarVal n) dst s

/-- `SAR.L` (R303). -/
def execSarL (n : BitVec 4) (dst : Opnd) (s : State) : Answer :=
  aluOne 0x7E#8 .long .forbid (shiftOp sarVal n) dst s

/-- `ROL.B` (R304). -/
def execRolB (n : BitVec 4) (dst : Opnd) (s : State) : Answer :=
  aluOne 0x80#8 .byte .forbid (shiftOp rolVal n) dst s

/-- `ROL.W` (R304). -/
def execRolW (n : BitVec 4) (dst : Opnd) (s : State) : Answer :=
  aluOne 0x81#8 .word .forbid (shiftOp rolVal n) dst s

/-- `ROL.L` (R304). -/
def execRolL (n : BitVec 4) (dst : Opnd) (s : State) : Answer :=
  aluOne 0x82#8 .long .forbid (shiftOp rolVal n) dst s

/-- `ROR.B` (R305). -/
def execRorB (n : BitVec 4) (dst : Opnd) (s : State) : Answer :=
  aluOne 0x84#8 .byte .forbid (shiftOp rorVal n) dst s

/-- `ROR.W` (R305). -/
def execRorW (n : BitVec 4) (dst : Opnd) (s : State) : Answer :=
  aluOne 0x85#8 .word .forbid (shiftOp rorVal n) dst s

/-- `ROR.L` (R305). -/
def execRorL (n : BitVec 4) (dst : Opnd) (s : State) : Answer :=
  aluOne 0x86#8 .long .forbid (shiftOp rorVal n) dst s

end Sys2Proof.Machine
end

