-- ==== Sys2Proof/Machine/Stack.lean ====
section
/-! DEFINITION. The stack instructions PUSH, POP, PUSHA and the control-register moves LDC and STC
(43_data_movement.md R236 to R238, R245, R246). -/

namespace Sys2Proof.Machine

open Sys2Proof

/-- `PUSH.B` (R236: the operand is read before SP moves). -/
def execPushB (src : Opnd) (s : State) : Answer :=
  readOne 0x90#8 .byte src 1 (fun v t => push .byte v t) s

/-- `PUSH.W` (R236: the operand is read before SP moves). -/
def execPushW (src : Opnd) (s : State) : Answer :=
  readOne 0x91#8 .word src 1 (fun v t => push .word v t) s

/-- `PUSH.L` (R236: the operand is read before SP moves). -/
def execPushL (src : Opnd) (s : State) : Answer :=
  readOne 0x92#8 .long src 1 (fun v t => push .long v t) s

/-- `POP.B` (R237). -/
def execPopB (dst : Opnd) (s : State) : Answer :=
  writeOne 0x94#8 .byte dst 1 (popValue .byte s) (popState .byte s) s

/-- `POP.W` (R237). -/
def execPopW (dst : Opnd) (s : State) : Answer :=
  writeOne 0x95#8 .word dst 1 (popValue .word s) (popState .word s) s

/-- `POP.L` (R237). -/
def execPopL (dst : Opnd) (s : State) : Answer :=
  writeOne 0x96#8 .long dst 1 (popValue .long s) (popState .long s) s

/-- `PUSHA` (R238: the effective address, zero-extended). -/
def execPusha (src : Opnd) (s : State) : Answer :=
  withPtr 0x98#8 src s fun ea =>
    .next (advance (2 + src.extLen) 1 (push .long (addrWord ea) s))

/-- `LDC src,FLG` (R245). -/
def execLdcFlg (src : Opnd) (s : State) : Answer :=
  readOne 0xA4#8 .word src 0 (fun v t => { t with flg := flagsLoad (v.setWidth 16) }) s

/-- `LDC src,SP` (R245). -/
def execLdcSp (src : Opnd) (s : State) : Answer :=
  readOne 0xA4#8 .long src 0 (fun v t => { t with sp := v }) s

/-- `LDC src,INTB` (R245). -/
def execLdcIntb (src : Opnd) (s : State) : Answer :=
  readOne 0xA4#8 .long src 0 (fun v t => { t with intb := v }) s

/-- `STC FLG,dst` (R246). -/
def execStcFlg (dst : Opnd) (s : State) : Answer :=
  writeOne 0xA5#8 .word dst 0 (s.flg.setWidth 32) s s

/-- `STC SP,dst` (R246). -/
def execStcSp (dst : Opnd) (s : State) : Answer :=
  writeOne 0xA5#8 .long dst 0 s.sp s s

/-- `STC INTB,dst` (R246). -/
def execStcIntb (dst : Opnd) (s : State) : Answer :=
  writeOne 0xA5#8 .long dst 0 s.intb s s

end Sys2Proof.Machine
end

