-- ==== Sys2Proof/Machine/Dispatch.lean ====
section
/-! DEFINITION. exec: one arm for each constructor of Instr, each one call of that instruction's meaning. -/

namespace Sys2Proof.Machine

open Sys2Proof

def exec (i : Instr) (s : State) : Host.Outcome State Fault Refusal :=
  match i with
  | .nop => Sys2Proof.Machine.execNop s
  | .movB src dst => Sys2Proof.Machine.execMovB src dst s
  | .movW src dst => Sys2Proof.Machine.execMovW src dst s
  | .movL src dst => Sys2Proof.Machine.execMovL src dst s
  | .addB src dst => Sys2Proof.Machine.execAddB src dst s
  | .addW src dst => Sys2Proof.Machine.execAddW src dst s
  | .addL src dst => Sys2Proof.Machine.execAddL src dst s
  | .adcB src dst => Sys2Proof.Machine.execAdcB src dst s
  | .adcW src dst => Sys2Proof.Machine.execAdcW src dst s
  | .adcL src dst => Sys2Proof.Machine.execAdcL src dst s
  | .subB src dst => Sys2Proof.Machine.execSubB src dst s
  | .subW src dst => Sys2Proof.Machine.execSubW src dst s
  | .subL src dst => Sys2Proof.Machine.execSubL src dst s
  | .sbbB src dst => Sys2Proof.Machine.execSbbB src dst s
  | .sbbW src dst => Sys2Proof.Machine.execSbbW src dst s
  | .sbbL src dst => Sys2Proof.Machine.execSbbL src dst s
  | .cmpB src dst => Sys2Proof.Machine.execCmpB src dst s
  | .cmpW src dst => Sys2Proof.Machine.execCmpW src dst s
  | .cmpL src dst => Sys2Proof.Machine.execCmpL src dst s
  | .andB src dst => Sys2Proof.Machine.execAndB src dst s
  | .andW src dst => Sys2Proof.Machine.execAndW src dst s
  | .andL src dst => Sys2Proof.Machine.execAndL src dst s
  | .orB src dst => Sys2Proof.Machine.execOrB src dst s
  | .orW src dst => Sys2Proof.Machine.execOrW src dst s
  | .orL src dst => Sys2Proof.Machine.execOrL src dst s
  | .xorB src dst => Sys2Proof.Machine.execXorB src dst s
  | .xorW src dst => Sys2Proof.Machine.execXorW src dst s
  | .xorL src dst => Sys2Proof.Machine.execXorL src dst s
  | .tstB src dst => Sys2Proof.Machine.execTstB src dst s
  | .tstW src dst => Sys2Proof.Machine.execTstW src dst s
  | .tstL src dst => Sys2Proof.Machine.execTstL src dst s
  | .daddB src dst => Sys2Proof.Machine.execDaddB src dst s
  | .daddW src dst => Sys2Proof.Machine.execDaddW src dst s
  | .dsubB src dst => Sys2Proof.Machine.execDsubB src dst s
  | .dsubW src dst => Sys2Proof.Machine.execDsubW src dst s
  | .extsB src dst => Sys2Proof.Machine.execExtsB src dst s
  | .extsW src dst => Sys2Proof.Machine.execExtsW src dst s
  | .extzB src dst => Sys2Proof.Machine.execExtzB src dst s
  | .extzW src dst => Sys2Proof.Machine.execExtzW src dst s
  | .lea src dst => Sys2Proof.Machine.execLea src dst s
  | .movBImm dst imm => Sys2Proof.Machine.execMovBImm dst imm s
  | .movWImm dst imm => Sys2Proof.Machine.execMovWImm dst imm s
  | .movLImm dst imm => Sys2Proof.Machine.execMovLImm dst imm s
  | .addBImm dst imm => Sys2Proof.Machine.execAddBImm dst imm s
  | .addWImm dst imm => Sys2Proof.Machine.execAddWImm dst imm s
  | .addLImm dst imm => Sys2Proof.Machine.execAddLImm dst imm s
  | .subBImm dst imm => Sys2Proof.Machine.execSubBImm dst imm s
  | .subWImm dst imm => Sys2Proof.Machine.execSubWImm dst imm s
  | .subLImm dst imm => Sys2Proof.Machine.execSubLImm dst imm s
  | .cmpBImm dst imm => Sys2Proof.Machine.execCmpBImm dst imm s
  | .cmpWImm dst imm => Sys2Proof.Machine.execCmpWImm dst imm s
  | .cmpLImm dst imm => Sys2Proof.Machine.execCmpLImm dst imm s
  | .andBImm dst imm => Sys2Proof.Machine.execAndBImm dst imm s
  | .andWImm dst imm => Sys2Proof.Machine.execAndWImm dst imm s
  | .andLImm dst imm => Sys2Proof.Machine.execAndLImm dst imm s
  | .orBImm dst imm => Sys2Proof.Machine.execOrBImm dst imm s
  | .orWImm dst imm => Sys2Proof.Machine.execOrWImm dst imm s
  | .orLImm dst imm => Sys2Proof.Machine.execOrLImm dst imm s
  | .xorBImm dst imm => Sys2Proof.Machine.execXorBImm dst imm s
  | .xorWImm dst imm => Sys2Proof.Machine.execXorWImm dst imm s
  | .xorLImm dst imm => Sys2Proof.Machine.execXorLImm dst imm s
  | .tstBImm dst imm => Sys2Proof.Machine.execTstBImm dst imm s
  | .tstWImm dst imm => Sys2Proof.Machine.execTstWImm dst imm s
  | .tstLImm dst imm => Sys2Proof.Machine.execTstLImm dst imm s
  | .addqB imm dst => Sys2Proof.Machine.execAddqB imm dst s
  | .addqW imm dst => Sys2Proof.Machine.execAddqW imm dst s
  | .addqL imm dst => Sys2Proof.Machine.execAddqL imm dst s
  | .shlB n dst => Sys2Proof.Machine.execShlB n dst s
  | .shlW n dst => Sys2Proof.Machine.execShlW n dst s
  | .shlL n dst => Sys2Proof.Machine.execShlL n dst s
  | .shrB n dst => Sys2Proof.Machine.execShrB n dst s
  | .shrW n dst => Sys2Proof.Machine.execShrW n dst s
  | .shrL n dst => Sys2Proof.Machine.execShrL n dst s
  | .sarB n dst => Sys2Proof.Machine.execSarB n dst s
  | .sarW n dst => Sys2Proof.Machine.execSarW n dst s
  | .sarL n dst => Sys2Proof.Machine.execSarL n dst s
  | .rolB n dst => Sys2Proof.Machine.execRolB n dst s
  | .rolW n dst => Sys2Proof.Machine.execRolW n dst s
  | .rolL n dst => Sys2Proof.Machine.execRolL n dst s
  | .rorB n dst => Sys2Proof.Machine.execRorB n dst s
  | .rorW n dst => Sys2Proof.Machine.execRorW n dst s
  | .rorL n dst => Sys2Proof.Machine.execRorL n dst s
  | .notB dst => Sys2Proof.Machine.execNotB dst s
  | .notW dst => Sys2Proof.Machine.execNotW dst s
  | .notL dst => Sys2Proof.Machine.execNotL dst s
  | .negB dst => Sys2Proof.Machine.execNegB dst s
  | .negW dst => Sys2Proof.Machine.execNegW dst s
  | .negL dst => Sys2Proof.Machine.execNegL dst s
  | .pushB src => Sys2Proof.Machine.execPushB src s
  | .pushW src => Sys2Proof.Machine.execPushW src s
  | .pushL src => Sys2Proof.Machine.execPushL src s
  | .popB dst => Sys2Proof.Machine.execPopB dst s
  | .popW dst => Sys2Proof.Machine.execPopW dst s
  | .popL dst => Sys2Proof.Machine.execPopL dst s
  | .pusha src => Sys2Proof.Machine.execPusha src s
  | .jmpi src => Sys2Proof.Machine.execJmpi src s
  | .jsri src => Sys2Proof.Machine.execJsri src s
  | .indexbB src => Sys2Proof.Machine.execIndexbB src s
  | .indexbW src => Sys2Proof.Machine.execIndexbW src s
  | .indexwB src => Sys2Proof.Machine.execIndexwB src s
  | .indexwW src => Sys2Proof.Machine.execIndexwW src s
  | .indexlB src => Sys2Proof.Machine.execIndexlB src s
  | .indexlW src => Sys2Proof.Machine.execIndexlW src s
  | .bitindexB src => Sys2Proof.Machine.execBitindexB src s
  | .bitindexW src => Sys2Proof.Machine.execBitindexW src s
  | .ldcFlg src => Sys2Proof.Machine.execLdcFlg src s
  | .ldcSp src => Sys2Proof.Machine.execLdcSp src s
  | .ldcIntb src => Sys2Proof.Machine.execLdcIntb src s
  | .stcFlg dst => Sys2Proof.Machine.execStcFlg dst s
  | .stcSp dst => Sys2Proof.Machine.execStcSp dst s
  | .stcIntb dst => Sys2Proof.Machine.execStcIntb dst s
  | .scCnd c dst => Sys2Proof.Machine.execScCnd c dst s
  | .bset bit dst => Sys2Proof.Machine.execBset bit dst s
  | .bclr bit dst => Sys2Proof.Machine.execBclr bit dst s
  | .bnot bit dst => Sys2Proof.Machine.execBnot bit dst s
  | .btst bit src => Sys2Proof.Machine.execBtst bit src s
  | .bmCnd bit c dst => Sys2Proof.Machine.execBmCnd bit c dst s
  | .fsetC => Sys2Proof.Machine.execFsetC s
  | .fsetZ => Sys2Proof.Machine.execFsetZ s
  | .fsetS => Sys2Proof.Machine.execFsetS s
  | .fsetO => Sys2Proof.Machine.execFsetO s
  | .fsetI => Sys2Proof.Machine.execFsetI s
  | .jCnd c rel => Sys2Proof.Machine.execJCnd c rel s
  | .jmpW rel => Sys2Proof.Machine.execJmpW rel s
  | .jmpA target => Sys2Proof.Machine.execJmpA target s
  | .jsrW rel => Sys2Proof.Machine.execJsrW rel s
  | .jsrA target => Sys2Proof.Machine.execJsrA target s
  | .rts => Sys2Proof.Machine.execRts s
  | .reit => Sys2Proof.Machine.execReit s
  | .int vector => Sys2Proof.Machine.execInt vector s
  | .fclrC => Sys2Proof.Machine.execFclrC s
  | .fclrZ => Sys2Proof.Machine.execFclrZ s
  | .fclrS => Sys2Proof.Machine.execFclrS s
  | .fclrO => Sys2Proof.Machine.execFclrO s
  | .fclrI => Sys2Proof.Machine.execFclrI s

end Sys2Proof.Machine
end

