-- ==== Sys2Proof/Machine/Step.lean ====
section
/-! DEFINITION. One `dispatch()` (40_dispatcher.md R159): fetch and decode, the instruction, the boundary check. -/

namespace Sys2Proof.Machine

open Sys2Proof

/-- The boundary after an instruction: none after a fatal error (R153), else the boundary check (R154 to R156). -/
def afterExec (a : Answer) : Answer :=
  match a with
  | .next t => .next (if t.halted then t else boundary t)
  | .fault f => .fault f
  | .refused r => .refused r

/-- One `dispatch()` (R159). While HALTED nothing happens (R141). A byte with no descriptor (R144) and a reserved field of
the mode byte (30_encoding.md R123) take the fatal entry IllegalOpcode. -/
def step (s : State) : Host.Outcome State Fault Refusal :=
  if s.halted then .next s
  else
    match decode (fetchWindow s) with
    | .ok i _ => afterExec (exec i s)
    | .noDescriptor b0 => .next (fatalEntry .illegalOpcode b0 s)
    | .reservedField b0 => .next (fatalEntry .illegalOpcode b0 s)
    | .truncated => .fault .fetchWindowTooShort

/-- The state with an instruction placed where the next step fetches: its bytes, zero above `nbits` up to the longest
instruction, stored from PC on. It stands for the harness loading memory (70_reset_and_hazards.md R457;
notes/assumptions/12.md). A halted engine stays halted. -/
def State.withFetchWord (s : State) (nbits w : Nat) : State :=
  { s with mem := storeBytes s.mem s.pc (tableBytes nbits w) }

end Sys2Proof.Machine
end

