-- ==== Sys2Proof/Machine/Outcome.lean ====
section
/-! DEFINITION. What `dispatch()` returns to its caller (00_scope.md R12, 40_dispatcher.md R158). -/

namespace Sys2Proof.Machine

open Sys2Proof

/-- The three outcomes of `dispatch()` (00_scope.md R12). -/
inductive DispatchOutcome where
  /-- One instruction completed and the boundary check is done. -/
  | ok
  /-- The dispatch was abandoned by `raise`; the engine is now HALTED. -/
  | fault (kind : FatalKind)
  /-- The engine was already HALTED; nothing changed. -/
  | halted
deriving DecidableEq, Repr

/-- The outcome of a dispatch from `s` that left `t` (00_scope.md R12): `halted` where the engine was stopped before it
(40_dispatcher.md R141), the recorded kind where it is stopped by it (60_exceptions.md R404, R405), else `ok`. -/
def returned (s t : State) : DispatchOutcome :=
  if s.halted then .halted
  else if t.halted then t.fault.elim .ok fun r => .fault r.kind
  else .ok

/-- `dispatch()` (40_dispatcher.md R158, R159): the state it leaves and the outcome it returns. -/
def dispatch (s : State) : Host.Outcome (State × DispatchOutcome) Fault Refusal :=
  match step s with
  | .next t => .next (t, returned s t)
  | .fault f => .fault f
  | .refused r => .refused r

end Sys2Proof.Machine
end

