-- ==== Sys2Proof/Machine/Port.lean ====
section
/-! DEFINITION. The register port (60_exceptions.md R420 to R424): what debuggers and peripheral models read and write
between dispatches. A port access of `n` bytes has `n` in 1, 2, 4, given as a width (R420). -/

namespace Sys2Proof.Machine

open Sys2Proof

/-- The code of FAULT.kind in STATUS bits 9:8 (R421). -/
def faultKindCode (f : Option FaultRecord) : BitVec 2 :=
  match f with
  | none => 0#2
  | some r =>
    match r.kind with
    | .illegalOpcode => 1#2
    | .illegalAddressingMode _ => 2#2

/-- FAULT.mode in STATUS bits 15:12, 0 if there is none (R421). -/
def faultMode (f : Option FaultRecord) : BitVec 4 :=
  match f with
  | none => 0#4
  | some r =>
    match r.kind with
    | .illegalOpcode => 0#4
    | .illegalAddressingMode m => m

/-- STICKY.armed, STICKY.kind (0 ADDR, 1 BIT) and STICKY.value; 0 when IDLE (R421, 10_state.md R40). -/
def stickyFields (k : Sticky) : BitVec 1 × BitVec 1 × BitVec 24 :=
  match k with
  | .idle => (0#1, 0#1, 0#24)
  | .armed v .addr => (1#1, 0#1, v)
  | .armed v .bit => (1#1, 1#1, v)

/-- STATUS (R421): mode, two zero bits, kind, three zero bits, STICKY.kind, STICKY.armed, DIAG.bcd, DIAG.mcra, HALTED. -/
def statusWord (s : State) : BitVec 16 :=
  faultMode s.fault ++ 0#2 ++ faultKindCode s.fault ++ 0#3 ++ (stickyFields s.sticky).2.1 ++ (stickyFields s.sticky).1 ++
    BitVec.ofBool s.diagBcd ++ BitVec.ofBool s.diagMcra ++ BitVec.ofBool s.halted

/-- `IMG`, offsets 0x00 to 0x2B (R421), every multi-byte item little-endian. -/
def portImage (s : State) : List Byte :=
  halfBytes s.r0 ++ halfBytes s.r2 ++ halfBytes s.r1 ++ halfBytes s.r3 ++
  wordBytes s.a0 ++ wordBytes s.a1 ++ wordBytes s.sp ++ wordBytes s.intb ++
  halfBytes s.flg ++ halfBytes 0#16 ++ wordBytes (addrWord s.pc) ++
  halfBytes (statusWord s) ++
  halfBytes ((s.fault.elim 0#8 fun r => r.opcode).setWidth 16) ++
  wordBytes (addrWord (s.fault.elim 0#24 fun r => r.pc)) ++
  wordBytes (addrWord (stickyFields s.sticky).2.2)

/-- `IMG[off]`; offsets 0x2C and above read 0 (R421). -/
def portByte (s : State) (off : Nat) : Byte := (portImage s).getD off 0#8

/-- Does an access of `n` bytes at `off` touch the `len` bytes from `start`? -/
def touches (off n start len : Nat) : Bool := decide (off < start + len) && decide (start < off + n)

/-- The conforming accesses of the control items (R423). -/
def conforming (off n : Nat) : Bool :=
  [(0x10, 4), (0x14, 4), (0x18, 2), (0x1A, 2), (0x18, 4), (0x1C, 4)].contains (off, n)

/-- Is the access a MisalignedControlRegisterAccess (R423)? -/
def misalignedControl (off n : Nat) : Bool := touches off n 0x10 0x10 && !conforming off n

/-- The state after any port access: DIAG.mcra is set by a misaligned one (R423). -/
def portNote (off : Nat) (w : Width) (s : State) : State :=
  { s with diagMcra := s.diagMcra || misalignedControl off w.bytes }

/-- `PortRead(off, n)` (R422): the value and the state after the access. The value is read from the image of the state
that `portNote` leaves. R423 names the setting of DIAG.mcra first and gives no order in time; that a misaligned read which
straddles 0x1F/0x20 shows in STATUS the DIAG.mcra it sets itself is the model's choice: DESIGN CHOICE
(notes/assumptions/19.md). -/
def portRead (off : Nat) (w : Width) (s : State) : Val × State :=
  let t := portNote off w s
  let g := portByte t
  let v : Val :=
    match w with
    | .byte => (g off).setWidth 32
    | .word => (g (off + 1) ++ g off).setWidth 32
    | .long => g (off + 3) ++ g (off + 2) ++ g (off + 1) ++ g off
  (v, t)

/-- `IMG'[k]` (R422): `IMG` with the bytes of `v` from `off` on, low byte first. -/
def writtenByte (off : Nat) (w : Width) (v : Val) (s : State) (k : Nat) : Byte :=
  if off ≤ k ∧ k < off + w.bytes then (wordBytes v).getD (k - off) 0#8 else portByte s k

/-- `PortWrite(off, n, v)` (R422): every writable item is loaded from `IMG'`, FLG through `FlagsLoad` where a byte of it
was written, PC from its low 24 bits; writes to the other items are ignored (R421). -/
def portWrite (off : Nat) (w : Width) (v : Val) (s : State) : State :=
  let g := writtenByte off w v s
  let half : Nat → BitVec 16 := fun k => g (k + 1) ++ g k
  let word : Nat → BitVec 32 := fun k => g (k + 3) ++ g (k + 2) ++ g (k + 1) ++ g k
  { portNote off w s with
    r0 := half 0x00
    r2 := half 0x02
    r1 := half 0x04
    r3 := half 0x06
    a0 := word 0x08
    a1 := word 0x0C
    sp := word 0x10
    intb := word 0x14
    flg := if touches off w.bytes 0x18 2 then flagsLoad (half 0x18) else s.flg
    pc := lowAddr (word 0x1C) }

end Sys2Proof.Machine
end

