-- ==== Sys2Proof/Safety.lean ====
section
/-! DEFINITION. What holds of every state between dispatches, what a safe step is, and the words in which a statement says
what an instruction leaves unchanged. -/

namespace Sys2Proof.Machine

open Sys2Proof

/-- The invariant of the state between dispatches: memory in its canonical form; the reserved bits of FLG read 0
(10_state.md R31, R32); INHIBIT is 0 (40_dispatcher.md R159); FAULT is recorded exactly when HALTED (10_state.md R58). -/
def State.Inv (s : State) : Bool :=
  s.mem.wf && decide (s.flg &&& flgMask = s.flg) && !s.inhibit && (s.halted == s.fault.isSome)

/-- The engine can run: it is not stopped by a fatal error (60_exceptions.md R404). -/
def State.running (s : State) : Bool := !s.halted

/-- A safe step: the dispatch returns `ok` (40_dispatcher.md R158), so one instruction completed and no fatal error was
raised. -/
def SafeStep (s : State) : Prop := ∃ t, dispatch s = .next (t, .ok)

/-! ## What stays unchanged -/

/-- The pieces of the general registers that views share (10_state.md R24 to R26): every view is one or two of them. -/
inductive Part where
  | r0l
  | r0h
  | r1l
  | r1h
  | r2
  | r3
  | a0l
  | a0h
  | a1l
  | a1h
deriving DecidableEq, Repr

/-- The bits of a piece. -/
def Part.read (p : Part) (s : State) : BitVec 16 :=
  match p with
  | .r0l => (s.r0.extractLsb' 0 8).setWidth 16
  | .r0h => (s.r0.extractLsb' 8 8).setWidth 16
  | .r1l => (s.r1.extractLsb' 0 8).setWidth 16
  | .r1h => (s.r1.extractLsb' 8 8).setWidth 16
  | .r2 => s.r2
  | .r3 => s.r3
  | .a0l => s.a0.extractLsb' 0 16
  | .a0h => s.a0.extractLsb' 16 16
  | .a1l => s.a1.extractLsb' 0 16
  | .a1h => s.a1.extractLsb' 16 16

/-- The pieces of a view. -/
def View.parts : View → List Part
  | .r0l => [.r0l]
  | .r0h => [.r0h]
  | .r1l => [.r1l]
  | .r1h => [.r1h]
  | .r0 => [.r0l, .r0h]
  | .r1 => [.r1l, .r1h]
  | .r2 => [.r2]
  | .r3 => [.r3]
  | .a0w => [.a0l]
  | .a1w => [.a1l]
  | .r2r0 => [.r0l, .r0h, .r2]
  | .r3r1 => [.r1l, .r1h, .r3]
  | .a0 => [.a0l, .a0h]
  | .a1 => [.a1l, .a1h]

/-- The pieces an accessor writes: none where it is in memory. -/
def Acc.parts : Acc → List Part
  | .reg v => v.parts
  | .mem _ _ => []

/-- Every piece of a general register is unchanged, those listed apart. -/
def KeepsRegs (written : List Part) (s t : State) : Prop := ∀ p, p ∉ written → p.read t = p.read s

/-- Every byte of memory is unchanged, those at the listed addresses apart. -/
def KeepsMem (written : List Addr) (s t : State) : Prop := ∀ a, a ∉ written → read8 t.mem a = read8 s.mem a

/-- Every bit of FLG is unchanged, those listed apart. -/
def KeepsFlags (written : List Nat) (s t : State) : Prop := ∀ k, k ∉ written → t.flg.getLsbD k = s.flg.getLsbD k

end Sys2Proof.Machine
end

