-- ==== Sys2Proof/Certificates/Slice0/Obligations.lean ====
section
/-! DEFINITION. The statements about the model, and the words they are written in. Every statement stands for all states
and all operands its hypotheses admit. -/

namespace Sys2Proof.Claims

open Sys2Proof Sys2Proof.Machine

/-! ## Instructions by width -/

/-- `MOV` of each size. -/
def movOf : Width → Opnd → Opnd → Instr
  | .byte => .movB
  | .word => .movW
  | .long => .movL

/-- `ADD` of each size. -/
def addOf : Width → Opnd → Opnd → Instr
  | .byte => .addB
  | .word => .addW
  | .long => .addL

/-- `ADC` of each size. -/
def adcOf : Width → Opnd → Opnd → Instr
  | .byte => .adcB
  | .word => .adcW
  | .long => .adcL

/-- `SUB` of each size. -/
def subOf : Width → Opnd → Opnd → Instr
  | .byte => .subB
  | .word => .subW
  | .long => .subL

/-- `SBB` of each size. -/
def sbbOf : Width → Opnd → Opnd → Instr
  | .byte => .sbbB
  | .word => .sbbW
  | .long => .sbbL

/-- `CMP` of each size. -/
def cmpOf : Width → Opnd → Opnd → Instr
  | .byte => .cmpB
  | .word => .cmpW
  | .long => .cmpL

/-- `AND` of each size. -/
def andOf : Width → Opnd → Opnd → Instr
  | .byte => .andB
  | .word => .andW
  | .long => .andL

/-- `OR` of each size. -/
def orOf : Width → Opnd → Opnd → Instr
  | .byte => .orB
  | .word => .orW
  | .long => .orL

/-- `XOR` of each size. -/
def xorOf : Width → Opnd → Opnd → Instr
  | .byte => .xorB
  | .word => .xorW
  | .long => .xorL

/-- `TST` of each size. -/
def tstOf : Width → Opnd → Opnd → Instr
  | .byte => .tstB
  | .word => .tstW
  | .long => .tstL

/-- `MOV #imm` of each size. -/
def movImmOf : (w : Width) → Opnd → BitVec w.bits → Instr
  | .byte => .movBImm
  | .word => .movWImm
  | .long => .movLImm

/-- `ADD #imm` of each size. -/
def addImmOf : (w : Width) → Opnd → BitVec w.bits → Instr
  | .byte => .addBImm
  | .word => .addWImm
  | .long => .addLImm

/-- `SUB #imm` of each size. -/
def subImmOf : (w : Width) → Opnd → BitVec w.bits → Instr
  | .byte => .subBImm
  | .word => .subWImm
  | .long => .subLImm

/-- `CMP #imm` of each size. -/
def cmpImmOf : (w : Width) → Opnd → BitVec w.bits → Instr
  | .byte => .cmpBImm
  | .word => .cmpWImm
  | .long => .cmpLImm

/-- `AND #imm` of each size. -/
def andImmOf : (w : Width) → Opnd → BitVec w.bits → Instr
  | .byte => .andBImm
  | .word => .andWImm
  | .long => .andLImm

/-- `OR #imm` of each size. -/
def orImmOf : (w : Width) → Opnd → BitVec w.bits → Instr
  | .byte => .orBImm
  | .word => .orWImm
  | .long => .orLImm

/-- `XOR #imm` of each size. -/
def xorImmOf : (w : Width) → Opnd → BitVec w.bits → Instr
  | .byte => .xorBImm
  | .word => .xorWImm
  | .long => .xorLImm

/-- `TST #imm` of each size. -/
def tstImmOf : (w : Width) → Opnd → BitVec w.bits → Instr
  | .byte => .tstBImm
  | .word => .tstWImm
  | .long => .tstLImm

/-- `ADDQ` of each size. -/
def addqOf : Width → BitVec 4 → Opnd → Instr
  | .byte => .addqB
  | .word => .addqW
  | .long => .addqL

/-- `SHL` of each size. -/
def shlOf : Width → BitVec 4 → Opnd → Instr
  | .byte => .shlB
  | .word => .shlW
  | .long => .shlL

/-- `SHR` of each size. -/
def shrOf : Width → BitVec 4 → Opnd → Instr
  | .byte => .shrB
  | .word => .shrW
  | .long => .shrL

/-- `SAR` of each size. -/
def sarOf : Width → BitVec 4 → Opnd → Instr
  | .byte => .sarB
  | .word => .sarW
  | .long => .sarL

/-- `ROL` of each size. -/
def rolOf : Width → BitVec 4 → Opnd → Instr
  | .byte => .rolB
  | .word => .rolW
  | .long => .rolL

/-- `ROR` of each size. -/
def rorOf : Width → BitVec 4 → Opnd → Instr
  | .byte => .rorB
  | .word => .rorW
  | .long => .rorL

/-- `NOT` of each size. -/
def notOf : Width → Opnd → Instr
  | .byte => .notB
  | .word => .notW
  | .long => .notL

/-- `NEG` of each size. -/
def negOf : Width → Opnd → Instr
  | .byte => .negB
  | .word => .negW
  | .long => .negL

/-- `PUSH` of each size. -/
def pushOf : Width → Opnd → Instr
  | .byte => .pushB
  | .word => .pushW
  | .long => .pushL

/-- `POP` of each size. -/
def popOf : Width → Opnd → Instr
  | .byte => .popB
  | .word => .popW
  | .long => .popL

/-! ## Numbers -/

/-- The signed reading of a number of a width (two's complement, 00_scope.md R11). -/
def signed (w : Width) (n : Nat) : Int := if n < 2 ^ (w.bits - 1) then n else (n : Int) - 2 ^ w.bits

/-- Is an integer outside the signed range of a width? -/
def outOfRange (w : Width) (i : Int) : Bool := decide (i < -2 ^ (w.bits - 1) ∨ 2 ^ (w.bits - 1) ≤ i)

/-- Are the low `n` digits of a number all at most 9 (44_arithmetic.md R271)? -/
def DigitsValid (n v : Nat) : Prop := ∀ i, i < n → v / 16 ^ i % 16 ≤ 9

/-- The number that `n` packed decimal digits stand for. -/
def decimalValue : Nat → Nat → Nat
  | 0, _ => 0
  | n + 1, v => v % 16 + 10 * decimalValue n (v / 16)

/-- The level of a request as a number. -/
def levelNumber : IntLevel → Nat
  | .l1 => 1
  | .l2 => 2
  | .l3 => 3
  | .l4 => 4
  | .l5 => 5
  | .l6 => 6
  | .l7 => 7

/-! ## Flags -/

/-- The bits of FLG that hold C, Z, S and O. -/
def czso : List Nat := [0, 1, 2, 3]

/-- The bits of FLG that hold C, Z and S. -/
def czs : List Nat := [0, 1, 2]

/-- The bits of FLG that hold Z and S. -/
def zs : List Nat := [1, 2]

/-- Z and S tell of a result of a width (42_flags_conditions.md R206). -/
structure ResultFlags (w : Width) (r : Nat) (flg : BitVec 16) : Prop where
  z : getFlag .z flg = decide (r = 0)
  s : getFlag .s flg = decide (2 ^ (w.bits - 1) ≤ r)

/-- The flags of `a + b + k` (R204, R214): carry out of the top bit, signed overflow, and the result's Z and S. -/
structure SumFlags (w : Width) (a b k : Nat) (flg : BitVec 16) : Prop extends
    ResultFlags w ((a + b + k) % 2 ^ w.bits) flg where
  c : getFlag .c flg = decide (2 ^ w.bits ≤ a + b + k)
  o : getFlag .o flg = outOfRange w (signed w a + signed w b + k)

/-- The flags of `a - b - k` (R205, R214, R216): C says no borrow. -/
structure DifferenceFlags (w : Width) (a b k : Nat) (flg : BitVec 16) : Prop extends
    ResultFlags w ((a + 2 ^ w.bits - b - k) % 2 ^ w.bits) flg where
  c : getFlag .c flg = decide (b + k ≤ a)
  o : getFlag .o flg = outOfRange w (signed w a - signed w b - k)

/-- When a condition holds (R213). -/
def condFormula (c : Cnd) (flg : BitVec 16) : Bool :=
  let C := getFlag .c flg
  let Z := getFlag .z flg
  let S := getFlag .s flg
  let O := getFlag .o flg
  match c with
  | .geu => C
  | .gtu => C && !Z
  | .eq => Z
  | .n => S
  | .le => Z || (S != O)
  | .o => O
  | .ge => S == O
  | .t => true
  | .ltu => !C
  | .leu => !C || Z
  | .ne => !Z
  | .pz => !S
  | .gt => !Z && (S == O)
  | .no => !O
  | .lt => S != O
  | .f => false

/-! ## Running to the end, and what stays -/

/-- The `m` of 70_reset_and_hazards.md R455: 1 where the operand is in a memory mode, else 0. -/
def inMem (o : Opnd) : Nat := if o.isMem then 1 else 0

/-- The instruction, no prefix, runs to its end with `nacc` data accesses: CYC grows by its length and `nacc`, STICKY goes
IDLE, and no latch, diagnostic of the port, sample or acknowledgement changes. PC is said apart. -/
structure Ends (i : Instr) (nacc : Nat) (s t : State) : Prop where
  runs : exec i s = .next t
  cyc : t.cyc = s.cyc + (encode i).length + nacc
  sticky : t.sticky = .idle
  inhibit : t.inhibit = s.inhibit
  halted : t.halted = s.halted
  fault : t.fault = s.fault
  mcra : t.diagMcra = s.diagMcra
  irq : t.irq = s.irq
  acks : t.acks = s.acks

/-- As `Ends`, and PC moves past the instruction. -/
structure Completes (i : Instr) (nacc : Nat) (s t : State) : Prop extends Ends i nacc s t where
  pc : t.pc.toNat = (s.pc.toNat + (encode i).length) % 2 ^ 24

/-- The general registers, memory and FLG are unchanged but for what is listed; INTB and DIAG.bcd are unchanged. SP is said
apart. -/
structure Outside (regs : List Part) (mem : List Addr) (flags : List Nat) (s t : State) : Prop where
  regs : KeepsRegs regs s t
  mem : KeepsMem mem s t
  flags : KeepsFlags flags s t
  intb : t.intb = s.intb
  bcd : t.diagBcd = s.diagBcd

/-- As `Outside`, and SP is unchanged. -/
structure Frame (regs : List Part) (mem : List Addr) (flags : List Nat) (s t : State) : Prop extends
    Outside regs mem flags s t where
  sp : t.sp = s.sp

/-! ## Shapes of statements. A binary value or flag rule is given the width, the destination's old value, the source value
brought to that width (41_resolver.md R186) and the old C. -/

/-- A two-operand instruction that writes its destination. The destination accessor `y` is the resolver's; the bytes and
register pieces it covers are the only ones that change. -/
def WritesTwo (i : Instr) (w : Width) (src dst : Opnd) (value : Width → Nat → Nat → Bool → Nat)
    (flags : Width → Nat → Nat → Bool → BitVec 16 → Prop) (changed : List Nat) (s : State) : Prop :=
  ∃ x y t, resolve src w (lmValue w) .allow s = some x ∧ resolve dst w (lmValue w) .allow s = some y ∧
    Completes i (inMem src + 2 * inMem dst) s t ∧
    (y.get t).toNat = value y.width (y.get s).toNat ((x.get s).toNat % 2 ^ y.width.bits) (getFlag .c s.flg) ∧
    flags y.width (y.get s).toNat ((x.get s).toNat % 2 ^ y.width.bits) (getFlag .c s.flg) t.flg ∧
    Frame y.parts y.span changed s t

/-- A two-operand instruction that only sets flags. -/
def TestsTwo (i : Instr) (w : Width) (src dst : Opnd)
    (flags : Width → Nat → Nat → Bool → BitVec 16 → Prop) (changed : List Nat) (s : State) : Prop :=
  ∃ x y t, resolve src w (lmValue w) .allow s = some x ∧ resolve dst w (lmValue w) .allow s = some y ∧
    Completes i (inMem src + inMem dst) s t ∧
    flags y.width (y.get s).toNat ((x.get s).toNat % 2 ^ y.width.bits) (getFlag .c s.flg) t.flg ∧
    Frame [] [] changed s t

/-- An instruction with an immediate source that writes its destination: the immediate is never sign-extended
(30_encoding.md R121). -/
def WritesImm (i : Instr) (w : Width) (dst : Opnd) (imm : Nat) (value : Width → Nat → Nat → Bool → Nat)
    (flags : Width → Nat → Nat → Bool → BitVec 16 → Prop) (changed : List Nat) (s : State) : Prop :=
  ∃ y t, resolve dst w (lmValue w) .allow s = some y ∧ Completes i (2 * inMem dst) s t ∧
    (y.get t).toNat = value y.width (y.get s).toNat imm (getFlag .c s.flg) ∧
    flags y.width (y.get s).toNat imm (getFlag .c s.flg) t.flg ∧ Frame y.parts y.span changed s t

/-- An instruction with an immediate source that only sets flags. -/
def TestsImm (i : Instr) (w : Width) (dst : Opnd) (imm : Nat)
    (flags : Width → Nat → Nat → Bool → BitVec 16 → Prop) (changed : List Nat) (s : State) : Prop :=
  ∃ y t, resolve dst w (lmValue w) .allow s = some y ∧ Completes i (inMem dst) s t ∧
    flags y.width (y.get s).toNat imm (getFlag .c s.flg) t.flg ∧ Frame [] [] changed s t

/-- A one-operand instruction that rewrites its operand. -/
def WritesOne (i : Instr) (w : Width) (p : Promote) (dst : Opnd) (value : Width → Nat → Nat → Prop)
    (flags : Width → Nat → Nat → BitVec 16 → Prop) (changed : List Nat) (s : State) : Prop :=
  ∃ y t, resolve dst w (lmValue w) p s = some y ∧ Completes i (2 * inMem dst) s t ∧
    value y.width (y.get s).toNat (y.get t).toNat ∧ flags y.width (y.get s).toNat (y.get t).toNat t.flg ∧
    Frame y.parts y.span changed s t

/-- A shift or rotate: `value` relates the width, the old and the new value; Z and S tell of the new one (R300). -/
def Shifts (i : Instr) (w : Width) (dst : Opnd) (value : Nat → Nat → Prop) (s : State) : Prop :=
  WritesOne i w .forbid dst (fun _ a r => value a r) (fun w' _ r => ResultFlags w' r) zs s

/-- Bitwise operations on two operands (R290): Z and S tell of the result. -/
def Logic2 (i : Instr) (w : Width) (src dst : Opnd) (f : Nat → Nat → Nat) (s : State) : Prop :=
  WritesTwo i w src dst (fun _ a b _ => f a b) (fun w' a b _ => ResultFlags w' (f a b)) zs s

/-- As `Logic2` with an immediate. -/
def LogicImm (i : Instr) (w : Width) (dst : Opnd) (imm : Nat) (f : Nat → Nat → Nat) (s : State) : Prop :=
  WritesImm i w dst imm (fun _ a b _ => f a b) (fun w' a b _ => ResultFlags w' (f a b)) zs s

/-- What DADD and DSUB do on valid digits (R273): `total` is the exact decimal value before reduction modulo `10^n`, `c` the
new C, given the two decimal values. -/
def DecimalResult (i : Instr) (w : Width) (src dst : Opnd) (total : Nat → Nat → Nat → Nat) (c : Nat → Nat → Nat → Bool)
    (s : State) : Prop :=
  ∀ x y, resolve src w (lmValue w) .forbid s = some x → resolve dst w (lmValue w) .forbid s = some y →
    DigitsValid (w.bits / 4) (y.get s).toNat → DigitsValid (w.bits / 4) (x.get s).toNat →
    ∃ t, Completes i (inMem src + 2 * inMem dst) s t ∧ DigitsValid (w.bits / 4) (y.get t).toNat ∧
      decimalValue (w.bits / 4) (y.get t).toNat =
        total (10 ^ (w.bits / 4)) (decimalValue (w.bits / 4) (y.get s).toNat) (decimalValue (w.bits / 4) (x.get s).toNat) %
          10 ^ (w.bits / 4) ∧
      getFlag .c t.flg =
        c (10 ^ (w.bits / 4)) (decimalValue (w.bits / 4) (y.get s).toNat) (decimalValue (w.bits / 4) (x.get s).toNat) ∧
      ResultFlags w (y.get t).toNat t.flg ∧ Frame y.parts y.span czs s t

/-- What DADD and DSUB do on a digit above 9 (R274, R425): the result and C are `BcdNonStd`'s, DIAG.bcd is set. -/
def DecimalFree (i : Instr) (op : DecimalOp) (w : Width) (src dst : Opnd) (s : State) : Prop :=
  ∀ x y, resolve src w (lmValue w) .forbid s = some x → resolve dst w (lmValue w) .forbid s = some y →
    ¬ (DigitsValid (w.bits / 4) (y.get s).toNat ∧ DigitsValid (w.bits / 4) (x.get s).toNat) →
    ∃ t, Completes i (inMem src + 2 * inMem dst) s t ∧ t.diagBcd = true ∧
      (y.get t).toNat = (Config.bcdNonStd op w (y.get s) (x.get s)).1.toNat % 2 ^ w.bits ∧
      getFlag .c t.flg = (Config.bcdNonStd op w (y.get s) (x.get s)).2 ∧ ResultFlags w (y.get t).toNat t.flg ∧
      KeepsRegs y.parts s t ∧ KeepsMem y.span s t ∧ KeepsFlags czs s t ∧ t.sp = s.sp ∧ t.intb = s.intb

/-- EXTS and EXTZ: the source of width `ws`, promotion forbidden, to a destination of twice the width. -/
def Extends (i : Instr) (ws wd : Width) (src dst : Opnd) (value : Nat → Nat) (s : State) : Prop :=
  ∃ x y t, resolve src ws (lmValue ws) .forbid s = some x ∧ resolve dst wd (lmValue wd) .allow s = some y ∧
    Completes i (inMem src + inMem dst) s t ∧ (y.get t).toNat = value (x.get s).toNat ∧
    ResultFlags wd (value (x.get s).toNat) t.flg ∧ Frame y.parts y.span zs s t

/-- A bit instruction that writes: bit `k` of the byte becomes `new old`, the byte's other bits stay (46_bit.md R320). -/
def WritesBit (i : Instr) (bit : BitVec 3) (dst : Opnd) (new : Bool → Bool) (s : State) : Prop :=
  ∃ y k t, resolveBit dst bit s = some (y, k) ∧ Completes i (2 * inMem dst) s t ∧
    (∀ j, j < 8 → (y.get t).toNat.testBit j = if j = k then new ((y.get s).toNat.testBit k) else (y.get s).toNat.testBit j) ∧
    Frame y.parts y.span [] s t

/-- A prefix instruction: STICKY is armed with the source times the scale modulo `2^24`, INHIBIT is set (47_prefix.md R349,
40_dispatcher.md R152). -/
def Arms (i : Instr) (w : Width) (src : Opnd) (scale : Nat) (kind : StickyKind) (s : State) : Prop :=
  ∃ x v t, resolve src w (lmValue w) .allow s = some x ∧ exec i s = .next t ∧
    v.toNat = (x.get s).toNat * scale % 2 ^ 24 ∧
    t = { s with pc := s.pc + BitVec.ofNat 24 (encode i).length, cyc := s.cyc + (encode i).length + inMem src,
                 sticky := .armed v kind, inhibit := true }

/-! ## Registers and the register port, from the tables of the spec -/

/-- Which view of a register a register mode names at a width (10_state.md R27, 41_resolver.md R173): the operand, the width
the instruction gives, the view. Modes 4 and 5 at width 8 are the promoted ones (41_resolver.md R174). -/
def registerViews : List (Opnd × Width × View) :=
  [(.dreg .r0, .byte, .r0l), (.dreg .r1, .byte, .r1l), (.dreg .r2, .byte, .r0h), (.dreg .r3, .byte, .r1h),
   (.dreg .r0, .word, .r0), (.dreg .r1, .word, .r1), (.dreg .r2, .word, .r2), (.dreg .r3, .word, .r3),
   (.dreg .r0, .long, .r2r0), (.dreg .r1, .long, .r3r1),
   (.areg .a0, .byte, .a0w), (.areg .a1, .byte, .a1w), (.areg .a0, .word, .a0w), (.areg .a1, .word, .a1w),
   (.areg .a0, .long, .a0), (.areg .a1, .long, .a1)]

/-- Byte `k` of a number, the lowest first. -/
def byteOf (n k : Nat) : Nat := n / 2 ^ (8 * k) % 2 ^ 8

/-- FAULT.kind as STATUS numbers it, and FAULT.mode (60_exceptions.md R421). -/
def faultNumbers (f : Option FaultRecord) : Nat × Nat :=
  match f.map FaultRecord.kind with
  | none => (0, 0)
  | some .illegalOpcode => (1, 0)
  | some (.illegalAddressingMode m) => (2, m.toNat)

/-- STICKY.armed, STICKY.kind and STICKY.value (10_state.md R40). -/
def stickyNumbers (k : Sticky) : Nat × Nat × Nat :=
  match k with
  | .idle => (0, 0, 0)
  | .armed v .addr => (1, 0, v.toNat)
  | .armed v .bit => (1, 1, v.toNat)

/-- STATUS (R421). -/
def statusNumber (s : State) : Nat :=
  s.halted.toNat + 2 * s.diagMcra.toNat + 2 ^ 2 * s.diagBcd.toNat + 2 ^ 3 * (stickyNumbers s.sticky).1 +
    2 ^ 4 * (stickyNumbers s.sticky).2.1 + 2 ^ 8 * (faultNumbers s.fault).1 + 2 ^ 12 * (faultNumbers s.fault).2

/-- The items of the port image (R421): offset, number of bytes, value. -/
def imageItems (s : State) : List (Nat × Nat × Nat) :=
  [(0x00, 2, s.r0.toNat), (0x02, 2, s.r2.toNat), (0x04, 2, s.r1.toNat), (0x06, 2, s.r3.toNat), (0x08, 4, s.a0.toNat),
   (0x0C, 4, s.a1.toNat), (0x10, 4, s.sp.toNat), (0x14, 4, s.intb.toNat), (0x18, 2, s.flg.toNat), (0x1A, 2, 0),
   (0x1C, 4, s.pc.toNat), (0x20, 2, statusNumber s), (0x22, 2, (s.fault.elim 0 fun r => r.opcode.toNat)),
   (0x24, 4, (s.fault.elim 0 fun r => r.pc.toNat)), (0x28, 4, (stickyNumbers s.sticky).2.2)]

/-- The byte of the port image at an offset: that of the item the offset lies in, and 0 beyond the items (R421). -/
def imageByte (s : State) (off : Nat) : Nat :=
  match (imageItems s).find? fun e => decide (e.1 ≤ off) && decide (off < e.1 + e.2.1) with
  | some e => byteOf e.2.2 (off - e.1)
  | none => 0

/-- What the port image reads at an access, the bytes of `n` from an offset on (60_exceptions.md R422). -/
def imageValue (s : State) (off n : Nat) : Nat := ((List.range n).map fun k => 2 ^ (8 * k) * imageByte s (off + k)).sum

/-- The bits of each byte of the image that a write can change (R421): FLG under 0x071F, 24 bits of PC, nothing from 0x20
on. -/
def writeMask (off : Nat) : Nat :=
  if off = 0x18 then 0x1F else if off = 0x19 then 0x07 else if off = 0x1A ∨ off = 0x1B ∨ 0x1F ≤ off then 0 else 0xFF

/-- Is a port access a MisalignedControlRegisterAccess (60_exceptions.md R423): it touches 0x10 to 0x1F and is not one of the
six conforming accesses? -/
def Misaligned (off n : Nat) : Prop :=
  (off < 0x20 ∧ 0x10 < off + n) ∧
    (off, n) ∉ [(0x10, 4), (0x14, 4), (0x18, 2), (0x1A, 2), (0x18, 4), (0x1C, 4)]

/-! ## Tables over all instructions -/

/-- The prefix instructions. -/
def isPrefix : Instr → Bool
  | .nop => false
  | .movB _ _ => false
  | .movW _ _ => false
  | .movL _ _ => false
  | .addB _ _ => false
  | .addW _ _ => false
  | .addL _ _ => false
  | .adcB _ _ => false
  | .adcW _ _ => false
  | .adcL _ _ => false
  | .subB _ _ => false
  | .subW _ _ => false
  | .subL _ _ => false
  | .sbbB _ _ => false
  | .sbbW _ _ => false
  | .sbbL _ _ => false
  | .cmpB _ _ => false
  | .cmpW _ _ => false
  | .cmpL _ _ => false
  | .andB _ _ => false
  | .andW _ _ => false
  | .andL _ _ => false
  | .orB _ _ => false
  | .orW _ _ => false
  | .orL _ _ => false
  | .xorB _ _ => false
  | .xorW _ _ => false
  | .xorL _ _ => false
  | .tstB _ _ => false
  | .tstW _ _ => false
  | .tstL _ _ => false
  | .daddB _ _ => false
  | .daddW _ _ => false
  | .dsubB _ _ => false
  | .dsubW _ _ => false
  | .extsB _ _ => false
  | .extsW _ _ => false
  | .extzB _ _ => false
  | .extzW _ _ => false
  | .lea _ _ => false
  | .movBImm _ _ => false
  | .movWImm _ _ => false
  | .movLImm _ _ => false
  | .addBImm _ _ => false
  | .addWImm _ _ => false
  | .addLImm _ _ => false
  | .subBImm _ _ => false
  | .subWImm _ _ => false
  | .subLImm _ _ => false
  | .cmpBImm _ _ => false
  | .cmpWImm _ _ => false
  | .cmpLImm _ _ => false
  | .andBImm _ _ => false
  | .andWImm _ _ => false
  | .andLImm _ _ => false
  | .orBImm _ _ => false
  | .orWImm _ _ => false
  | .orLImm _ _ => false
  | .xorBImm _ _ => false
  | .xorWImm _ _ => false
  | .xorLImm _ _ => false
  | .tstBImm _ _ => false
  | .tstWImm _ _ => false
  | .tstLImm _ _ => false
  | .addqB _ _ => false
  | .addqW _ _ => false
  | .addqL _ _ => false
  | .shlB _ _ => false
  | .shlW _ _ => false
  | .shlL _ _ => false
  | .shrB _ _ => false
  | .shrW _ _ => false
  | .shrL _ _ => false
  | .sarB _ _ => false
  | .sarW _ _ => false
  | .sarL _ _ => false
  | .rolB _ _ => false
  | .rolW _ _ => false
  | .rolL _ _ => false
  | .rorB _ _ => false
  | .rorW _ _ => false
  | .rorL _ _ => false
  | .notB _ => false
  | .notW _ => false
  | .notL _ => false
  | .negB _ => false
  | .negW _ => false
  | .negL _ => false
  | .pushB _ => false
  | .pushW _ => false
  | .pushL _ => false
  | .popB _ => false
  | .popW _ => false
  | .popL _ => false
  | .pusha _ => false
  | .jmpi _ => false
  | .jsri _ => false
  | .indexbB _ => true
  | .indexbW _ => true
  | .indexwB _ => true
  | .indexwW _ => true
  | .indexlB _ => true
  | .indexlW _ => true
  | .bitindexB _ => true
  | .bitindexW _ => true
  | .ldcFlg _ => false
  | .ldcSp _ => false
  | .ldcIntb _ => false
  | .stcFlg _ => false
  | .stcSp _ => false
  | .stcIntb _ => false
  | .scCnd _ _ => false
  | .bset _ _ => false
  | .bclr _ _ => false
  | .bnot _ _ => false
  | .btst _ _ => false
  | .bmCnd _ _ _ => false
  | .fsetC => false
  | .fsetZ => false
  | .fsetS => false
  | .fsetO => false
  | .fsetI => false
  | .jCnd _ _ => false
  | .jmpW _ => false
  | .jmpA _ => false
  | .jsrW _ => false
  | .jsrA _ => false
  | .rts => false
  | .reit => false
  | .int _ => false
  | .fclrC => false
  | .fclrZ => false
  | .fclrS => false
  | .fclrO => false
  | .fclrI => false

/-- The instructions that name a target (48_control_system.md R350). -/
def namesTarget : Instr → Bool
  | .nop => false
  | .movB _ _ => false
  | .movW _ _ => false
  | .movL _ _ => false
  | .addB _ _ => false
  | .addW _ _ => false
  | .addL _ _ => false
  | .adcB _ _ => false
  | .adcW _ _ => false
  | .adcL _ _ => false
  | .subB _ _ => false
  | .subW _ _ => false
  | .subL _ _ => false
  | .sbbB _ _ => false
  | .sbbW _ _ => false
  | .sbbL _ _ => false
  | .cmpB _ _ => false
  | .cmpW _ _ => false
  | .cmpL _ _ => false
  | .andB _ _ => false
  | .andW _ _ => false
  | .andL _ _ => false
  | .orB _ _ => false
  | .orW _ _ => false
  | .orL _ _ => false
  | .xorB _ _ => false
  | .xorW _ _ => false
  | .xorL _ _ => false
  | .tstB _ _ => false
  | .tstW _ _ => false
  | .tstL _ _ => false
  | .daddB _ _ => false
  | .daddW _ _ => false
  | .dsubB _ _ => false
  | .dsubW _ _ => false
  | .extsB _ _ => false
  | .extsW _ _ => false
  | .extzB _ _ => false
  | .extzW _ _ => false
  | .lea _ _ => false
  | .movBImm _ _ => false
  | .movWImm _ _ => false
  | .movLImm _ _ => false
  | .addBImm _ _ => false
  | .addWImm _ _ => false
  | .addLImm _ _ => false
  | .subBImm _ _ => false
  | .subWImm _ _ => false
  | .subLImm _ _ => false
  | .cmpBImm _ _ => false
  | .cmpWImm _ _ => false
  | .cmpLImm _ _ => false
  | .andBImm _ _ => false
  | .andWImm _ _ => false
  | .andLImm _ _ => false
  | .orBImm _ _ => false
  | .orWImm _ _ => false
  | .orLImm _ _ => false
  | .xorBImm _ _ => false
  | .xorWImm _ _ => false
  | .xorLImm _ _ => false
  | .tstBImm _ _ => false
  | .tstWImm _ _ => false
  | .tstLImm _ _ => false
  | .addqB _ _ => false
  | .addqW _ _ => false
  | .addqL _ _ => false
  | .shlB _ _ => false
  | .shlW _ _ => false
  | .shlL _ _ => false
  | .shrB _ _ => false
  | .shrW _ _ => false
  | .shrL _ _ => false
  | .sarB _ _ => false
  | .sarW _ _ => false
  | .sarL _ _ => false
  | .rolB _ _ => false
  | .rolW _ _ => false
  | .rolL _ _ => false
  | .rorB _ _ => false
  | .rorW _ _ => false
  | .rorL _ _ => false
  | .notB _ => false
  | .notW _ => false
  | .notL _ => false
  | .negB _ => false
  | .negW _ => false
  | .negL _ => false
  | .pushB _ => false
  | .pushW _ => false
  | .pushL _ => false
  | .popB _ => false
  | .popW _ => false
  | .popL _ => false
  | .pusha _ => false
  | .jmpi _ => true
  | .jsri _ => true
  | .indexbB _ => false
  | .indexbW _ => false
  | .indexwB _ => false
  | .indexwW _ => false
  | .indexlB _ => false
  | .indexlW _ => false
  | .bitindexB _ => false
  | .bitindexW _ => false
  | .ldcFlg _ => false
  | .ldcSp _ => false
  | .ldcIntb _ => false
  | .stcFlg _ => false
  | .stcSp _ => false
  | .stcIntb _ => false
  | .scCnd _ _ => false
  | .bset _ _ => false
  | .bclr _ _ => false
  | .bnot _ _ => false
  | .btst _ _ => false
  | .bmCnd _ _ _ => false
  | .fsetC => false
  | .fsetZ => false
  | .fsetS => false
  | .fsetO => false
  | .fsetI => false
  | .jCnd _ _ => true
  | .jmpW _ => true
  | .jmpA _ => true
  | .jsrW _ => true
  | .jsrA _ => true
  | .rts => true
  | .reit => true
  | .int _ => true
  | .fclrC => false
  | .fclrZ => false
  | .fclrS => false
  | .fclrO => false
  | .fclrI => false

/-- The data accesses of every instruction: the column `nacc` of 70_reset_and_hazards.md R455. LEA to memory is the one
write that 43_data_movement.md R235 makes it (see notes/assumptions/18.md). -/
def dataAccesses : Instr → Nat
  | .nop => 0
  | .movB src dst => inMem src + inMem dst
  | .movW src dst => inMem src + inMem dst
  | .movL src dst => inMem src + inMem dst
  | .addB src dst => inMem src + 2 * inMem dst
  | .addW src dst => inMem src + 2 * inMem dst
  | .addL src dst => inMem src + 2 * inMem dst
  | .adcB src dst => inMem src + 2 * inMem dst
  | .adcW src dst => inMem src + 2 * inMem dst
  | .adcL src dst => inMem src + 2 * inMem dst
  | .subB src dst => inMem src + 2 * inMem dst
  | .subW src dst => inMem src + 2 * inMem dst
  | .subL src dst => inMem src + 2 * inMem dst
  | .sbbB src dst => inMem src + 2 * inMem dst
  | .sbbW src dst => inMem src + 2 * inMem dst
  | .sbbL src dst => inMem src + 2 * inMem dst
  | .cmpB src dst => inMem src + inMem dst
  | .cmpW src dst => inMem src + inMem dst
  | .cmpL src dst => inMem src + inMem dst
  | .andB src dst => inMem src + 2 * inMem dst
  | .andW src dst => inMem src + 2 * inMem dst
  | .andL src dst => inMem src + 2 * inMem dst
  | .orB src dst => inMem src + 2 * inMem dst
  | .orW src dst => inMem src + 2 * inMem dst
  | .orL src dst => inMem src + 2 * inMem dst
  | .xorB src dst => inMem src + 2 * inMem dst
  | .xorW src dst => inMem src + 2 * inMem dst
  | .xorL src dst => inMem src + 2 * inMem dst
  | .tstB src dst => inMem src + inMem dst
  | .tstW src dst => inMem src + inMem dst
  | .tstL src dst => inMem src + inMem dst
  | .daddB src dst => inMem src + 2 * inMem dst
  | .daddW src dst => inMem src + 2 * inMem dst
  | .dsubB src dst => inMem src + 2 * inMem dst
  | .dsubW src dst => inMem src + 2 * inMem dst
  | .extsB src dst => inMem src + inMem dst
  | .extsW src dst => inMem src + inMem dst
  | .extzB src dst => inMem src + inMem dst
  | .extzW src dst => inMem src + inMem dst
  | .lea _ dst => inMem dst
  | .movBImm dst _ => inMem dst
  | .movWImm dst _ => inMem dst
  | .movLImm dst _ => inMem dst
  | .addBImm dst _ => 2 * inMem dst
  | .addWImm dst _ => 2 * inMem dst
  | .addLImm dst _ => 2 * inMem dst
  | .subBImm dst _ => 2 * inMem dst
  | .subWImm dst _ => 2 * inMem dst
  | .subLImm dst _ => 2 * inMem dst
  | .cmpBImm dst _ => inMem dst
  | .cmpWImm dst _ => inMem dst
  | .cmpLImm dst _ => inMem dst
  | .andBImm dst _ => 2 * inMem dst
  | .andWImm dst _ => 2 * inMem dst
  | .andLImm dst _ => 2 * inMem dst
  | .orBImm dst _ => 2 * inMem dst
  | .orWImm dst _ => 2 * inMem dst
  | .orLImm dst _ => 2 * inMem dst
  | .xorBImm dst _ => 2 * inMem dst
  | .xorWImm dst _ => 2 * inMem dst
  | .xorLImm dst _ => 2 * inMem dst
  | .tstBImm dst _ => inMem dst
  | .tstWImm dst _ => inMem dst
  | .tstLImm dst _ => inMem dst
  | .addqB _ dst => 2 * inMem dst
  | .addqW _ dst => 2 * inMem dst
  | .addqL _ dst => 2 * inMem dst
  | .shlB _ dst => 2 * inMem dst
  | .shlW _ dst => 2 * inMem dst
  | .shlL _ dst => 2 * inMem dst
  | .shrB _ dst => 2 * inMem dst
  | .shrW _ dst => 2 * inMem dst
  | .shrL _ dst => 2 * inMem dst
  | .sarB _ dst => 2 * inMem dst
  | .sarW _ dst => 2 * inMem dst
  | .sarL _ dst => 2 * inMem dst
  | .rolB _ dst => 2 * inMem dst
  | .rolW _ dst => 2 * inMem dst
  | .rolL _ dst => 2 * inMem dst
  | .rorB _ dst => 2 * inMem dst
  | .rorW _ dst => 2 * inMem dst
  | .rorL _ dst => 2 * inMem dst
  | .notB dst => 2 * inMem dst
  | .notW dst => 2 * inMem dst
  | .notL dst => 2 * inMem dst
  | .negB dst => 2 * inMem dst
  | .negW dst => 2 * inMem dst
  | .negL dst => 2 * inMem dst
  | .pushB src => inMem src + 1
  | .pushW src => inMem src + 1
  | .pushL src => inMem src + 1
  | .popB dst => inMem dst + 1
  | .popW dst => inMem dst + 1
  | .popL dst => inMem dst + 1
  | .pusha _ => 1
  | .jmpi _ => 1
  | .jsri _ => 2
  | .indexbB src => inMem src
  | .indexbW src => inMem src
  | .indexwB src => inMem src
  | .indexwW src => inMem src
  | .indexlB src => inMem src
  | .indexlW src => inMem src
  | .bitindexB src => inMem src
  | .bitindexW src => inMem src
  | .ldcFlg src => inMem src
  | .ldcSp src => inMem src
  | .ldcIntb src => inMem src
  | .stcFlg dst => inMem dst
  | .stcSp dst => inMem dst
  | .stcIntb dst => inMem dst
  | .scCnd _ dst => inMem dst
  | .bset _ dst => 2 * inMem dst
  | .bclr _ dst => 2 * inMem dst
  | .bnot _ dst => 2 * inMem dst
  | .btst _ src => inMem src
  | .bmCnd _ _ dst => 2 * inMem dst
  | .fsetC => 0
  | .fsetZ => 0
  | .fsetS => 0
  | .fsetO => 0
  | .fsetI => 0
  | .jCnd _ _ => 0
  | .jmpW _ => 0
  | .jmpA _ => 0
  | .jsrW _ => 1
  | .jsrA _ => 1
  | .rts => 1
  | .reit => 2
  | .int _ => 3
  | .fclrC => 0
  | .fclrZ => 0
  | .fclrS => 0
  | .fclrO => 0
  | .fclrI => 0

/-- The instructions that 42_flags_conditions.md R215 lists as leaving all of FLG unchanged. -/
def leavesFlags : Instr → Bool
  | .nop => true
  | .movB _ _ => false
  | .movW _ _ => false
  | .movL _ _ => false
  | .addB _ _ => false
  | .addW _ _ => false
  | .addL _ _ => false
  | .adcB _ _ => false
  | .adcW _ _ => false
  | .adcL _ _ => false
  | .subB _ _ => false
  | .subW _ _ => false
  | .subL _ _ => false
  | .sbbB _ _ => false
  | .sbbW _ _ => false
  | .sbbL _ _ => false
  | .cmpB _ _ => false
  | .cmpW _ _ => false
  | .cmpL _ _ => false
  | .andB _ _ => false
  | .andW _ _ => false
  | .andL _ _ => false
  | .orB _ _ => false
  | .orW _ _ => false
  | .orL _ _ => false
  | .xorB _ _ => false
  | .xorW _ _ => false
  | .xorL _ _ => false
  | .tstB _ _ => false
  | .tstW _ _ => false
  | .tstL _ _ => false
  | .daddB _ _ => false
  | .daddW _ _ => false
  | .dsubB _ _ => false
  | .dsubW _ _ => false
  | .extsB _ _ => false
  | .extsW _ _ => false
  | .extzB _ _ => false
  | .extzW _ _ => false
  | .lea _ _ => true
  | .movBImm _ _ => false
  | .movWImm _ _ => false
  | .movLImm _ _ => false
  | .addBImm _ _ => false
  | .addWImm _ _ => false
  | .addLImm _ _ => false
  | .subBImm _ _ => false
  | .subWImm _ _ => false
  | .subLImm _ _ => false
  | .cmpBImm _ _ => false
  | .cmpWImm _ _ => false
  | .cmpLImm _ _ => false
  | .andBImm _ _ => false
  | .andWImm _ _ => false
  | .andLImm _ _ => false
  | .orBImm _ _ => false
  | .orWImm _ _ => false
  | .orLImm _ _ => false
  | .xorBImm _ _ => false
  | .xorWImm _ _ => false
  | .xorLImm _ _ => false
  | .tstBImm _ _ => false
  | .tstWImm _ _ => false
  | .tstLImm _ _ => false
  | .addqB _ _ => false
  | .addqW _ _ => false
  | .addqL _ _ => false
  | .shlB _ _ => false
  | .shlW _ _ => false
  | .shlL _ _ => false
  | .shrB _ _ => false
  | .shrW _ _ => false
  | .shrL _ _ => false
  | .sarB _ _ => false
  | .sarW _ _ => false
  | .sarL _ _ => false
  | .rolB _ _ => false
  | .rolW _ _ => false
  | .rolL _ _ => false
  | .rorB _ _ => false
  | .rorW _ _ => false
  | .rorL _ _ => false
  | .notB _ => false
  | .notW _ => false
  | .notL _ => false
  | .negB _ => false
  | .negW _ => false
  | .negL _ => false
  | .pushB _ => true
  | .pushW _ => true
  | .pushL _ => true
  | .popB _ => true
  | .popW _ => true
  | .popL _ => true
  | .pusha _ => true
  | .jmpi _ => true
  | .jsri _ => true
  | .indexbB _ => true
  | .indexbW _ => true
  | .indexwB _ => true
  | .indexwW _ => true
  | .indexlB _ => true
  | .indexlW _ => true
  | .bitindexB _ => true
  | .bitindexW _ => true
  | .ldcFlg _ => false
  | .ldcSp _ => true
  | .ldcIntb _ => true
  | .stcFlg _ => true
  | .stcSp _ => true
  | .stcIntb _ => true
  | .scCnd _ _ => true
  | .bset _ _ => true
  | .bclr _ _ => true
  | .bnot _ _ => true
  | .btst _ _ => false
  | .bmCnd _ _ _ => true
  | .fsetC => false
  | .fsetZ => false
  | .fsetS => false
  | .fsetO => false
  | .fsetI => false
  | .jCnd _ _ => true
  | .jmpW _ => true
  | .jmpA _ => true
  | .jsrW _ => true
  | .jsrA _ => true
  | .rts => true
  | .reit => false
  | .int _ => false
  | .fclrC => false
  | .fclrZ => false
  | .fclrS => false
  | .fclrO => false
  | .fclrI => false

/-- The values of `byte0` with no descriptor, as the ranges of 30_encoding.md R122. -/
def illegalRanges : List (Nat × Nat) :=
  [(0x00, 0x00), (0x02, 0x0F), (0x13, 0x13), (0x17, 0x17), (0x1B, 0x1B), (0x1F, 0x1F), (0x23, 0x23), (0x27, 0x27),
   (0x2B, 0x2B), (0x2F, 0x2F), (0x33, 0x33), (0x37, 0x37), (0x3A, 0x3B), (0x3E, 0x3F), (0x42, 0x43), (0x46, 0x47),
   (0x49, 0x4F), (0x53, 0x53), (0x57, 0x57), (0x5B, 0x5B), (0x5F, 0x5F), (0x63, 0x63), (0x67, 0x67), (0x6B, 0x6B),
   (0x6F, 0x6F), (0x73, 0x73), (0x77, 0x77), (0x7B, 0x7B), (0x7F, 0x7F), (0x83, 0x83), (0x87, 0x87), (0x8B, 0x8B),
   (0x8F, 0x8F), (0x93, 0x93), (0x97, 0x97), (0x9B, 0x9B), (0xA7, 0xAF), (0xDD, 0xDF), (0xF7, 0xF7), (0xFD, 0xFF)]

/-- The values of `byte0` of formats I, G1, P and B, whose mode byte has a reserved high nibble (30_encoding.md R104, R120,
R123). -/
def reservedNibbleRanges : List (Nat × Nat) :=
  [(0x50, 0x52), (0x54, 0x56), (0x58, 0x5A), (0x5C, 0x5E), (0x60, 0x62), (0x64, 0x66), (0x68, 0x6A), (0x6C, 0x6E),
   (0x88, 0x8A), (0x8C, 0x8E), (0x90, 0x92), (0x94, 0x96), (0x98, 0x9A), (0x9C, 0xA3), (0xB0, 0xCF)]

/-- Is a byte in one of the ranges? -/
def inRanges (l : List (Nat × Nat)) (b : Byte) : Bool := l.any fun p => decide (p.1 ≤ b.toNat) && decide (b.toNat ≤ p.2)

/-- The state after IllegalOpcode (60_exceptions.md R402, R404). -/
def illegalOpcodeState (s : State) : State :=
  { s with halted := true, fault := some ⟨.illegalOpcode, s.pc, read8 s.mem s.pc⟩ }

/-- The bytes of an instruction stand in memory from PC on. -/
def StandsAtPc (i : Instr) (s : State) : Prop :=
  ∀ k (h : k < (encode i).length), read8 s.mem (s.pc + BitVec.ofNat 24 k) = (encode i)[k]

end Sys2Proof.Claims

section

open Sys2Proof Sys2Proof.Machine Sys2Proof.Claims

/-! # Encoding and decoding -/

/-- A few instructions written out byte by byte from 30_encoding.md decode to what they stand for. -/
def Obligations.KnownWordsDecode : Prop :=
  decode [0x01#8] = .ok .nop [] ∧
  decode [0x15#8, 0xA0#8, 0x10#8, 0x00#8] = .ok (.addW (.dsp16 .a0 0x0010#16) (.dreg .r0)) [] ∧
  decode [0x52#8, 0x0F#8, 0x00#8, 0x30#8, 0x00#8, 0x78#8, 0x56#8, 0x34#8, 0x12#8] =
    .ok (.movLImm (.abs24 0x003000#24) 0x12345678#32) [] ∧
  decode [0x70#8, 0xF1#8] = .ok (.addqB 0xF#4 (.dreg .r1)) [] ∧
  decode [0x39#8, 0x10#8] = .ok (.daddW (.dreg .r1) (.dreg .r0)) [] ∧
  decode [0x68#8, 0x06#8, 0xFF#8] = .ok (.xorBImm (.ind .a0) 0xFF#8) [] ∧
  decode [0x85#8, 0x30#8] = .ok (.rorW 3#4 (.dreg .r0)) [] ∧
  decode [0x98#8, 0x0E#8, 0x00#8, 0x40#8] = .ok (.pusha (.abs16 0x4000#16)) [] ∧
  decode [0xA4#8, 0x14#8] = .ok (.ldcSp (.areg .a0)) [] ∧
  decode [0xC9#8, 0x0E#8, 0x01#8, 0x41#8] = .ok (.btst 1#3 (.abs16 0x4101#16)) [] ∧
  decode [0xD5#8, 0xA6#8] = .ok (.bmCnd 5#3 .ne (.ind .a0)) [] ∧
  decode [0xA3#8, 0x0E#8, 0x00#8, 0x30#8] = .ok (.bitindexW (.abs16 0x3000#16)) [] ∧
  decode [0xEA#8, 0xF8#8] = .ok (.jCnd .ne 0xF8#8) [] ∧
  decode [0xF3#8, 0x00#8, 0x11#8, 0x00#8] = .ok (.jsrA 0x001100#24) [] ∧
  decode [0xF6#8, 0x05#8] = .ok (.int 5#8) []

/-- Decoding what the encoder writes, whatever bytes follow, gives the instruction and those bytes: for every instruction
and every value of every field. -/
def Obligations.DecodeOfEncode : Prop :=
  ∀ (i : Instr) (rest : List Byte), decode (encode i ++ rest) = .ok i rest

/-- Whatever decodes to an instruction begins with that instruction's encoding: no two byte sequences mean the same
instruction, and the length the decoder takes is the encoding's. -/
def Obligations.EncodeOfDecode : Prop :=
  ∀ (bs rest : List Byte) (i : Instr), decode bs = .ok i rest → bs = encode i ++ rest

/-- The 75 values of `byte0` with no descriptor, and only they, have none; a running engine that meets one halts with
IllegalOpcode and changes nothing else. -/
def Obligations.IllegalOpcodeByte : Prop :=
  (∀ b : Byte, (descriptor b).isNone = inRanges illegalRanges b) ∧
  ∀ s : State, s.halted = false → inRanges illegalRanges (read8 s.mem s.pc) = true →
    step s = .next (illegalOpcodeState s)

/-- A reserved value in the mode byte halts a running engine with IllegalOpcode, whatever the mode code is: a high nibble
other than 0 in formats I, G1, P and B, other than 0, 1, 2 in format C (LDC, STC). -/
def Obligations.ReservedModeByte : Prop :=
  ∀ s : State, s.halted = false →
    (inRanges reservedNibbleRanges (read8 s.mem s.pc) = true ∧ 16 ≤ (read8 s.mem (s.pc + 1#24)).toNat) ∨
      (inRanges [(0xA4, 0xA5)] (read8 s.mem s.pc) = true ∧ 48 ≤ (read8 s.mem (s.pc + 1#24)).toNat) →
    step s = .next (illegalOpcodeState s)

/-! # The step -/

/-- When the bytes at PC decode to an instruction, a running engine's step is that instruction, followed by the boundary
check unless it raised a fatal error. -/
def Obligations.StepRunsDecoded : Prop :=
  ∀ (s t : State) (i : Instr) (rest : List Byte), s.halted = false → decode (fetchWindow s) = .ok i rest →
    exec i s = .next t → step s = .next (if t.halted then t else boundary t)

/-- When the encoding of an instruction stands in memory from PC on (addresses modulo `2^24`), the step runs it. -/
def Obligations.StepRunsStoredBytes : Prop :=
  ∀ (s t : State) (i : Instr), s.halted = false → StandsAtPc i s → exec i s = .next t →
    step s = .next (if t.halted then t else boundary t)

/-- Every step answers a next state: neither a fault of the model nor a refusal is ever reached; and the dispatch returns one
of the three outcomes: `halted` where the engine was HALTED, with nothing changed; else `ok`, with the engine still running,
CYC grown by at least 1 and at most one acknowledgement; or `fault(kind)`, with nothing changed but HALTED and FAULT, which
records the kind, the PC and the first byte. -/
def Obligations.StepAnswersNext : Prop :=
  ∀ s : State, ∃ t o, step s = .next t ∧ dispatch s = .next (t, o) ∧
    (s.halted = true → o = .halted ∧ t = s) ∧
    (s.halted = false →
      (o = .ok ∧ t.halted = false ∧ t.fault = s.fault ∧ s.cyc < t.cyc ∧
        (t.acks = s.acks ∨ ∃ r, t.acks = s.acks ++ [r])) ∨
      ∃ k, o = .fault k ∧ t = { s with halted := true, fault := some ⟨k, s.pc, read8 s.mem s.pc⟩ })

/-- While HALTED a dispatch does nothing, and reset leaves HALTED. -/
def Obligations.HaltedDoesNothing : Prop :=
  ∀ s : State, s.halted = true → step s = .next s ∧ (engineReset s).halted = false

/-- Every step keeps the invariant: memory canonical, the reserved bits of FLG 0, INHIBIT 0 between dispatches, a fault
record exactly when HALTED. -/
def Obligations.StepKeepsInv : Prop :=
  ∀ s t : State, s.Inv = true → step s = .next t → t.Inv = true

/-- The invariant holds after reset. -/
def Obligations.ResetInv : Prop := State.reset.Inv = true

/-- What `reset()` leaves, from any state: the registers of R440 zero, nothing armed or halted, PC from the three low bytes
of the word at 0xFFFFFC; memory, CYC, the samples to come and the acknowledgements made stay. That State.reset
is such a state, with PC 0, is the model's choice and not the spec's: PC 0 because a byte nothing has written reads 0x00, so
that the reset vector of a memory with nothing placed is 0 (notes/assumptions/1.md, 12.md); its CYC, samples and
acknowledgements by notes/assumptions/2.md, 3.md and 4.md. -/
def Obligations.ResetValues : Prop :=
  (∀ s : State, ∃ t, engineReset s = t ∧
    t.r0 = 0 ∧ t.r1 = 0 ∧ t.r2 = 0 ∧ t.r3 = 0 ∧ t.a0 = 0 ∧ t.a1 = 0 ∧ t.sp = 0 ∧ t.intb = 0 ∧ t.flg = 0 ∧
    t.sticky = .idle ∧ t.inhibit = false ∧ t.halted = false ∧ t.fault = none ∧ t.diagMcra = false ∧ t.diagBcd = false ∧
    t.phase = .ready ∧
    t.pc.toNat = (read8 s.mem 0xFFFFFC#24).toNat + 2 ^ 8 * (read8 s.mem 0xFFFFFD#24).toNat +
      2 ^ 16 * (read8 s.mem 0xFFFFFE#24).toNat ∧
    t.cyc = s.cyc ∧ t.mem = s.mem ∧ t.irq = s.irq ∧ t.acks = s.acks) ∧
  engineReset State.reset = State.reset

/-- With INHIBIT set the boundary clears it, samples nothing and does nothing else. Otherwise it takes one sample: a
request is acknowledged exactly when I is 1 and its level exceeds IPL, and in every other case only the sample is used
up. The last clause, that an exhausted list of samples is NONE and the boundary then changes nothing, is the model's choice,
as is holding the samples in State (notes/assumptions/2.md). -/
def Obligations.BoundaryCheck : Prop :=
  (∀ s : State, s.inhibit = true → boundary s = { s with inhibit := false }) ∧
  ∀ s : State, s.inhibit = false →
    (boundary s).irq = s.irq.tail ∧
    (∀ (r : Irq) (q : List (Option Irq)), s.irq = some r :: q →
      getFlag .i s.flg = true → (getIpl s.flg).toNat < levelNumber r.level → (boundary s).acks = s.acks ++ [r]) ∧
    (∀ (r : Irq) (q : List (Option Irq)), s.irq = some r :: q →
      (getFlag .i s.flg = false ∨ levelNumber r.level ≤ (getIpl s.flg).toNat) → boundary s = { s with irq := q }) ∧
    (∀ q : List (Option Irq), s.irq = none :: q → boundary s = { s with irq := q }) ∧
    (s.irq = [] → boundary s = s)

/-- Interrupt entry: FLG and the return address are pushed, I is cleared, IPL becomes the level, PC is loaded from the
vector; CYC, the general registers and every byte outside the six pushed stay. -/
def Obligations.InterruptEntry : Prop :=
  ∀ (s : State) (r : Irq) (q : List (Option Irq)), s.mem.wf = true → s.inhibit = false → s.irq = some r :: q →
    getFlag .i s.flg = true → (getIpl s.flg).toNat < levelNumber r.level →
    ∃ t, boundary s = t ∧ t.sp = s.sp - 6#32 ∧
      read32 t.mem (lowAddr (s.sp - 6#32)) = s.pc.setWidth 32 ∧ read16 t.mem (lowAddr (s.sp - 2#32)) = s.flg ∧
      KeepsMem (span (lowAddr (s.sp - 6#32)) 6) s t ∧
      getFlag .i t.flg = false ∧ (getIpl t.flg).toNat = levelNumber r.level ∧ KeepsFlags [4, 8, 9, 10] s t ∧
      t.pc = lowAddr (read32 t.mem (BitVec.ofNat 24 (s.intb.toNat + 4 * r.vector.toNat))) ∧
      KeepsRegs [] s t ∧ t.intb = s.intb ∧ t.cyc = s.cyc ∧ t.sticky = s.sticky ∧ t.inhibit = false ∧
      t.halted = s.halted ∧ t.fault = s.fault ∧ t.diagMcra = s.diagMcra ∧ t.diagBcd = s.diagBcd ∧
      t.irq = q ∧ t.acks = s.acks ++ [r]

/-- The transitions of the sticky slot over a step that raises no fatal error: armed by a prefix instruction and by no
other, IDLE after any other; and the boundary after a prefix takes no sample and no interrupt. -/
def Obligations.StickyTransitions : Prop :=
  ∀ (s : State) (i : Instr) (rest : List Byte), s.halted = false → s.inhibit = false →
    decode (fetchWindow s) = .ok i rest → i.wellFormed = true →
    ∃ t, step s = .next t ∧ t.inhibit = false ∧ (isPrefix i = false → t.sticky = .idle) ∧
      (isPrefix i = true → (∃ v k, t.sticky = .armed v k) ∧ t.irq = s.irq ∧ t.acks = s.acks)

/-! # All instructions -/

/-- Every well-formed instruction, of every constructor, runs to its end in every state: CYC grows by its length and its data
accesses, PC moves past it unless it names a target, STICKY and INHIBIT follow the prefix rule, and no latch, sample or
acknowledgement changes. -/
def Obligations.WellFormedCompletes : Prop :=
  ∀ (i : Instr) (s : State), i.wellFormed = true →
    ∃ t, exec i s = .next t ∧ t.cyc = s.cyc + (encode i).length + dataAccesses i ∧
      (namesTarget i = false → t.pc.toNat = (s.pc.toNat + (encode i).length) % 2 ^ 24) ∧
      (isPrefix i = false → t.sticky = .idle ∧ t.inhibit = s.inhibit) ∧
      (isPrefix i = true → (∃ v k, t.sticky = .armed v k) ∧ t.inhibit = true) ∧
      t.halted = s.halted ∧ t.fault = s.fault ∧ t.diagMcra = s.diagMcra ∧ t.irq = s.irq ∧ t.acks = s.acks

/-- An instruction with an operand form it does not admit takes the fatal entry IllegalAddressingMode with the mode code of
the first such operand in resolution order, and changes nothing else. -/
def Obligations.IllFormedHalts : Prop :=
  ∀ (i : Instr) (s : State) (mode : BitVec 4), i.firstIllegalMode = some mode →
    ∃ b0 rest, encode i = b0 :: rest ∧
      exec i s = .next { s with halted := true, fault := some ⟨.illegalAddressingMode mode, s.pc, b0⟩ }

/-- The instructions that leave all of FLG unchanged. -/
def Obligations.FlagsUntouched : Prop :=
  ∀ (i : Instr) (s t : State), leavesFlags i = true → exec i s = .next t → t.flg = s.flg

/-- INTB changes only by LDC, DIAG.mcra by no instruction, DIAG.bcd is never cleared, CYC never falls. -/
def Obligations.ControlStateWriters : Prop :=
  ∀ (i : Instr) (s t : State), exec i s = .next t →
    ((∀ o, i ≠ .ldcIntb o) → t.intb = s.intb) ∧ t.diagMcra = s.diagMcra ∧ (s.diagBcd = true → t.diagBcd = true) ∧
      s.cyc ≤ t.cyc

/-! # Memory, operands, flags -/

/-- Memory is little-endian at every width: byte `k` of a value written stands at address `a + k` modulo `2^24`, every other
byte stays, and a read of any width puts the bytes together in that order. -/
def Obligations.MemoryLittleEndian : Prop :=
  ∀ (m : Memory) (w : Width) (a : Addr) (v : Val), m.wf = true →
    (∀ k, k < w.bytes →
      (read8 (memWrite w m a v) (a + BitVec.ofNat 24 k)).toNat = v.toNat / 2 ^ (8 * k) % 2 ^ 8) ∧
    (∀ b, b ∉ span a w.bytes → read8 (memWrite w m a v) b = read8 m b) ∧
    (read16 m a).toNat = (read8 m a).toNat + 2 ^ 8 * (read8 m (a + 1#24)).toNat ∧
    (read24 m a).toNat = (read16 m a).toNat + 2 ^ 16 * (read8 m (a + 2#24)).toNat ∧
    (read32 m a).toNat = (read16 m a).toNat + 2 ^ 16 * (read16 m (a + 2#24)).toNat

/-- Which operand forms the resolver admits: any at widths 8 and 16, but an address register at width 8 where promotion is
forbidden; not modes 2 and 3 at width 32; only memory for a pointer; no address register for a bit. And which view of a
register it names for each register mode at each width, an address register at width 8 being promoted to its low 16 bits; the
16-bit and 32-bit views are the registers themselves. -/
def Obligations.ResolverAdmits : Prop :=
  (∀ (o : Opnd) (s : State) (bit : BitVec 3),
    (∀ w, (resolve o w (lmValue w) .allow s).isSome = (OpndUse.value w true).admits o) ∧
    (∀ w, (resolve o w (lmValue w) .forbid s).isSome = (OpndUse.value w false).admits o) ∧
    (resolvePtr o lmPtr s).isSome = o.isMem ∧ (resolveBit o bit s).isSome = !o.isAReg) ∧
  (∀ (s : State) (o : Opnd) (w : Width) (v : View), (o, w, v) ∈ registerViews →
    resolve o w (lmValue w) .allow s = some (.reg v) ∧
    ((o.isAReg = true → w ≠ .byte) → resolve o w (lmValue w) .forbid s = some (.reg v))) ∧
  ∀ s : State,
    (View.r0.read s).toNat = s.r0.toNat ∧ (View.r1.read s).toNat = s.r1.toNat ∧ (View.r2.read s).toNat = s.r2.toNat ∧
    (View.r3.read s).toNat = s.r3.toNat ∧ View.a0.read s = s.a0 ∧ View.a1.read s = s.a1

/-- The effective addresses of the ten memory modes, as sums modulo `2^24` in which `dsp:8` and `dsp:16` are signed and an
armed ADDR index is added to every one; the value accessor and the pointer agree on them. -/
def Obligations.EffectiveAddress : Prop :=
  ∀ (s : State) (o : Opnd) (ea : Addr) (w : Width) (p : Promote), resolvePtr o lmPtr s = some ea →
    resolve o w (lmValue w) p s = some (.mem ea w) ∧
    let an : AReg → Int := fun a => match a with | .a0 => s.a0.toNat | .a1 => s.a1.toNat
    let idx : Int := match s.sticky with | .armed v .addr => v.toNat | .armed _ .bit => 0 | .idle => 0
    (ea.toNat : Int) =
      match o with
      | .dreg _ => 0
      | .areg _ => 0
      | .ind a => (an a + idx) % 2 ^ 24
      | .dsp8 a d => (an a + d.toInt + idx) % 2 ^ 24
      | .dsp16 a d => (an a + d.toInt + idx) % 2 ^ 24
      | .dsp24 a d => (an a + d.toNat + idx) % 2 ^ 24
      | .abs16 d => (d.toNat + idx) % 2 ^ 24
      | .abs24 d => (d.toNat + idx) % 2 ^ 24

/-- Where a bit operand lies: modes 0 to 3 name the bytes R0L, R1L, R0H, R1H, the bit number is the instruction's and an armed index is ignored; in
memory the armed BIT index is added to the bit number as an exact integer, and byte and bit follow. That the sum is not
reduced to 24 bits is the model's reading (notes/assumptions/8.md). -/
def Obligations.BitOperandPlace : Prop :=
  ∀ (s : State) (o : Opnd) (bit : BitVec 3),
    (o = .dreg .r0 → resolveBit o bit s = some (.reg .r0l, bit.toNat)) ∧
    (o = .dreg .r1 → resolveBit o bit s = some (.reg .r1l, bit.toNat)) ∧
    (o = .dreg .r2 → resolveBit o bit s = some (.reg .r0h, bit.toNat)) ∧
    (o = .dreg .r3 → resolveBit o bit s = some (.reg .r1h, bit.toNat)) ∧
    (∀ ea, resolvePtr o lmPtr s = some ea →
      let extra : Nat := match s.sticky with | .armed v .bit => v.toNat | .armed _ .addr => 0 | .idle => 0
      ∃ a : Addr, resolveBit o bit s = some (.mem a .byte, (bit.toNat + extra) % 8) ∧
        a.toNat = (ea.toNat + (bit.toNat + extra) / 8) % 2 ^ 24)

/-- Every accessor, hence that of every mode an operand admits, at its effective width: setting what was got changes
nothing, and a value of the width that is set is got back. A wider view of a register is put together from the narrower
ones. -/
def Obligations.AccessorRoundTrip : Prop :=
  (∀ (x : Acc) (s : State), s.mem.wf = true →
    x.set (x.get s) s = s ∧ ∀ v : Val, v.toNat < 2 ^ x.width.bits → x.get (x.set v s) = v) ∧
  ∀ s : State,
    (View.r0.read s).toNat = (View.r0l.read s).toNat + 2 ^ 8 * (View.r0h.read s).toNat ∧
    (View.r1.read s).toNat = (View.r1l.read s).toNat + 2 ^ 8 * (View.r1h.read s).toNat ∧
    (View.r2r0.read s).toNat = (View.r0.read s).toNat + 2 ^ 16 * (View.r2.read s).toNat ∧
    (View.r3r1.read s).toNat = (View.r1.read s).toNat + 2 ^ 16 * (View.r3.read s).toNat ∧
    (View.a0w.read s).toNat = (View.a0.read s).toNat % 2 ^ 16 ∧
    (View.a1w.read s).toNat = (View.a1.read s).toNat % 2 ^ 16

/-- The two sign-indexed tables give the textbook carry (for subtraction: no borrow) and overflow at every width, with
every carry-in or borrow-in. -/
def Obligations.FlagTablesTextbook : Prop :=
  ∀ (w : Width) (a b r : Val) (k : Nat), a.toNat < 2 ^ w.bits → b.toNat < 2 ^ w.bits → k ≤ 1 →
    (r.toNat = (a.toNat + b.toNat + k) % 2 ^ w.bits →
      addTab[signIndex w a b r]? = some
        (decide (2 ^ w.bits ≤ a.toNat + b.toNat + k), outOfRange w (signed w a.toNat + signed w b.toNat + k))) ∧
    ((r.toNat : Int) = ((a.toNat : Int) - b.toNat - k) % 2 ^ w.bits →
      subTab[signIndex w a b r]? = some
        (decide (b.toNat + k ≤ a.toNat), outOfRange w (signed w a.toNat - signed w b.toNat - k)))

/-- The precomputed condition table equals the sixteen formulas at every FLG value. -/
def Obligations.ConditionTable : Prop :=
  ∀ (c : Cnd) (flg : BitVec 16), condHolds c flg = condFormula c flg

/-! # Arithmetic -/

/-- ADD and ADC of each size: the sum modulo the destination's width, with the old C for ADC, and the flags of the exact
sum. -/
def Obligations.AddAdcResult : Prop :=
  ∀ (w : Width) (src dst : Opnd) (s : State), s.mem.wf = true →
    ((addOf w src dst).wellFormed = true →
      WritesTwo (addOf w src dst) w src dst (fun w' a b _ => (a + b) % 2 ^ w'.bits) (fun w' a b _ => SumFlags w' a b 0)
        czso s) ∧
    ((adcOf w src dst).wellFormed = true →
      WritesTwo (adcOf w src dst) w src dst (fun w' a b c => (a + b + c.toNat) % 2 ^ w'.bits)
        (fun w' a b c => SumFlags w' a b c.toNat) czso s)

/-- SUB and SBB of each size: destination minus source modulo the destination's width, less NOT C for SBB. -/
def Obligations.SubSbbResult : Prop :=
  ∀ (w : Width) (src dst : Opnd) (s : State), s.mem.wf = true →
    ((subOf w src dst).wellFormed = true →
      WritesTwo (subOf w src dst) w src dst (fun w' a b _ => (a + 2 ^ w'.bits - b) % 2 ^ w'.bits)
        (fun w' a b _ => DifferenceFlags w' a b 0) czso s) ∧
    ((sbbOf w src dst).wellFormed = true →
      WritesTwo (sbbOf w src dst) w src dst (fun w' a b c => (a + 2 ^ w'.bits - b - (!c).toNat) % 2 ^ w'.bits)
        (fun w' a b c => DifferenceFlags w' a b (!c).toNat) czso s)

/-- CMP and CMP# of each size: the flags of the subtraction, and nothing written. -/
def Obligations.CmpFlags : Prop :=
  ∀ (w : Width) (src dst : Opnd) (imm : BitVec w.bits) (s : State),
    ((cmpOf w src dst).wellFormed = true →
      TestsTwo (cmpOf w src dst) w src dst (fun w' a b _ => DifferenceFlags w' a b 0) czso s) ∧
    ((cmpImmOf w dst imm).wellFormed = true →
      TestsImm (cmpImmOf w dst imm) w dst imm.toNat (fun w' a b _ => DifferenceFlags w' a b 0) czso s)

/-- ADD# and SUB# of each size; the immediate is unsigned, also where the destination is promoted to 16 bits. -/
def Obligations.AddSubImmediateResult : Prop :=
  ∀ (w : Width) (dst : Opnd) (imm : BitVec w.bits) (s : State), s.mem.wf = true →
    ((addImmOf w dst imm).wellFormed = true →
      WritesImm (addImmOf w dst imm) w dst imm.toNat (fun w' a b _ => (a + b) % 2 ^ w'.bits)
        (fun w' a b _ => SumFlags w' a b 0) czso s) ∧
    ((subImmOf w dst imm).wellFormed = true →
      WritesImm (subImmOf w dst imm) w dst imm.toNat (fun w' a b _ => (a + 2 ^ w'.bits - b) % 2 ^ w'.bits)
        (fun w' a b _ => DifferenceFlags w' a b 0) czso s)

/-- ADDQ adds its signed 4-bit constant; NEG subtracts from 0. -/
def Obligations.AddqNegResult : Prop :=
  ∀ (w : Width) (imm : BitVec 4) (dst : Opnd) (s : State), s.mem.wf = true →
    ((addqOf w imm dst).wellFormed = true →
      WritesOne (addqOf w imm dst) w .allow dst (fun w' a r => (r : Int) = ((a : Int) + imm.toInt) % 2 ^ w'.bits)
        (fun w' a _ => SumFlags w' a (imm.toInt % 2 ^ w'.bits).toNat 0) czso s) ∧
    ((negOf w dst).wellFormed = true →
      WritesOne (negOf w dst) w .allow dst (fun w' a r => (r : Int) = -(a : Int) % 2 ^ w'.bits)
        (fun w' a _ => DifferenceFlags w' 0 a 0) czso s)

/-- DADD and DSUB on valid digits are decimal addition and subtraction modulo `10^n`; C is the decimal carry, for DSUB NOT
the decimal borrow. -/
def Obligations.DecimalValidDigits : Prop :=
  ∀ (src dst : Opnd) (s : State), s.mem.wf = true →
    DecimalResult (.daddB src dst) .byte src dst (fun _ a b => a + b) (fun n a b => decide (n ≤ a + b)) s ∧
    DecimalResult (.daddW src dst) .word src dst (fun _ a b => a + b) (fun n a b => decide (n ≤ a + b)) s ∧
    DecimalResult (.dsubB src dst) .byte src dst (fun n a b => a + n - b) (fun _ a b => decide (b ≤ a)) s ∧
    DecimalResult (.dsubW src dst) .word src dst (fun n a b => a + n - b) (fun _ a b => decide (b ≤ a)) s

/-- DADD and DSUB on a digit above 9 run to their end: DIAG.bcd is set, the result and C are those of the free parameter
`BcdNonStd` (notes/assumptions/7.md), Z and S tell of that result. -/
def Obligations.DecimalOtherDigits : Prop :=
  ∀ (src dst : Opnd) (s : State), s.mem.wf = true →
    DecimalFree (.daddB src dst) .dadd .byte src dst s ∧ DecimalFree (.daddW src dst) .dadd .word src dst s ∧
    DecimalFree (.dsubB src dst) .dsub .byte src dst s ∧ DecimalFree (.dsubW src dst) .dsub .word src dst s

/-! # Logic, shifts, moves -/

/-- AND, OR and XOR of each size, with two operands and with an immediate; the immediate is unsigned, so `AND.B #n,A0`
clears `A0[15:8]`. -/
def Obligations.LogicResult : Prop :=
  ∀ (w : Width) (src dst : Opnd) (imm : BitVec w.bits) (s : State), s.mem.wf = true →
    ((andOf w src dst).wellFormed = true → Logic2 (andOf w src dst) w src dst (· &&& ·) s) ∧
    ((orOf w src dst).wellFormed = true → Logic2 (orOf w src dst) w src dst (· ||| ·) s) ∧
    ((xorOf w src dst).wellFormed = true → Logic2 (xorOf w src dst) w src dst (· ^^^ ·) s) ∧
    ((andImmOf w dst imm).wellFormed = true → LogicImm (andImmOf w dst imm) w dst imm.toNat (· &&& ·) s) ∧
    ((orImmOf w dst imm).wellFormed = true → LogicImm (orImmOf w dst imm) w dst imm.toNat (· ||| ·) s) ∧
    ((xorImmOf w dst imm).wellFormed = true → LogicImm (xorImmOf w dst imm) w dst imm.toNat (· ^^^ ·) s)

/-- TST and TST# of each size: Z and S of the bitwise AND, and nothing written. -/
def Obligations.TstFlags : Prop :=
  ∀ (w : Width) (src dst : Opnd) (imm : BitVec w.bits) (s : State),
    ((tstOf w src dst).wellFormed = true →
      TestsTwo (tstOf w src dst) w src dst (fun w' a b _ => ResultFlags w' (a &&& b)) zs s) ∧
    ((tstImmOf w dst imm).wellFormed = true →
      TestsImm (tstImmOf w dst imm) w dst imm.toNat (fun w' a b _ => ResultFlags w' (a &&& b)) zs s)

/-- NOT of each size: every bit of the operand, at its width after promotion, inverted. -/
def Obligations.NotResult : Prop :=
  ∀ (w : Width) (dst : Opnd) (s : State), s.mem.wf = true → (notOf w dst).wellFormed = true →
    WritesOne (notOf w dst) w .allow dst (fun w' a r => r = 2 ^ w'.bits - 1 - a) (fun w' _ r => ResultFlags w' r) zs s

/-- SHL, SHR and SAR of each size by the embedded count plus 1, 1 to 16, never reduced by the width; C and O stay. -/
def Obligations.ShiftResult : Prop :=
  ∀ (w : Width) (n : BitVec 4) (dst : Opnd) (s : State), s.mem.wf = true → (shlOf w n dst).wellFormed = true →
    Shifts (shlOf w n dst) w dst (fun a r => r = a * 2 ^ (n.toNat + 1) % 2 ^ w.bits) s ∧
    Shifts (shrOf w n dst) w dst (fun a r => r = a / 2 ^ (n.toNat + 1)) s ∧
    Shifts (sarOf w n dst) w dst (fun a r => (r : Int) = signed w a / 2 ^ (n.toNat + 1) % 2 ^ w.bits) s

/-- ROL and ROR of each size: bit `j` of the result is the bit that lay `n` places below (ROL) or above (ROR), counted
around the width; C and O stay. -/
def Obligations.RotateResult : Prop :=
  ∀ (w : Width) (n : BitVec 4) (dst : Opnd) (s : State), s.mem.wf = true → (rolOf w n dst).wellFormed = true →
    Shifts (rolOf w n dst) w dst
      (fun a r => ∀ j, j < w.bits → r.testBit ((j + (n.toNat + 1)) % w.bits) = a.testBit j) s ∧
    Shifts (rorOf w n dst) w dst
      (fun a r => ∀ j, j < w.bits → r.testBit j = a.testBit ((j + (n.toNat + 1)) % w.bits)) s

/-- MOV and MOV# of each size: the value at the destination's width, with its Z and S; the destination is not read. -/
def Obligations.MovResult : Prop :=
  ∀ (w : Width) (src dst : Opnd) (imm : BitVec w.bits) (s : State), s.mem.wf = true →
    ((movOf w src dst).wellFormed = true →
      ∃ x y t, resolve src w (lmValue w) .allow s = some x ∧ resolve dst w (lmValue w) .allow s = some y ∧
        Completes (movOf w src dst) (inMem src + inMem dst) s t ∧
        (y.get t).toNat = (x.get s).toNat % 2 ^ y.width.bits ∧ ResultFlags y.width (y.get t).toNat t.flg ∧
        Frame y.parts y.span zs s t) ∧
    ((movImmOf w dst imm).wellFormed = true →
      ∃ y t, resolve dst w (lmValue w) .allow s = some y ∧ Completes (movImmOf w dst imm) (inMem dst) s t ∧
        (y.get t).toNat = imm.toNat ∧ ResultFlags y.width imm.toNat t.flg ∧ Frame y.parts y.span zs s t)

/-- EXTS and EXTZ: the source read as a signed or unsigned number, written at twice its width. -/
def Obligations.ExtendResult : Prop :=
  ∀ (src dst : Opnd) (s : State), s.mem.wf = true →
    ((Instr.extsB src dst).wellFormed = true →
      Extends (.extsB src dst) .byte .word src dst (fun n => (signed .byte n % 2 ^ 16).toNat) s) ∧
    ((Instr.extsW src dst).wellFormed = true →
      Extends (.extsW src dst) .word .long src dst (fun n => (signed .word n % 2 ^ 32).toNat) s) ∧
    ((Instr.extzB src dst).wellFormed = true → Extends (.extzB src dst) .byte .word src dst (fun n => n) s) ∧
    ((Instr.extzW src dst).wellFormed = true → Extends (.extzW src dst) .word .long src dst (fun n => n) s)

/-- LEA writes the 24-bit effective address, zero-extended to 32 bits; no flag changes. -/
def Obligations.LeaResult : Prop :=
  ∀ (src dst : Opnd) (s : State), s.mem.wf = true → (Instr.lea src dst).wellFormed = true →
    ∃ ea y t, resolvePtr src lmPtr s = some ea ∧ resolve dst .long (lmValue .long) .allow s = some y ∧
      Completes (.lea src dst) (inMem dst) s t ∧ (y.get t).toNat = ea.toNat ∧ Frame y.parts y.span [] s t

/-! # The stack and the control registers -/

/-- PUSH of each size puts the operand, read before SP moves, at the new top of the stack; PUSHA the effective address,
zero-extended to 32 bits. -/
def Obligations.PushResult : Prop :=
  ∀ (w : Width) (src : Opnd) (s : State), s.mem.wf = true →
    ((pushOf w src).wellFormed = true → ∃ x t, resolve src w (lmValue w) .forbid s = some x ∧ Completes (pushOf w src) (inMem src + 1) s t ∧
      t.sp = s.sp - BitVec.ofNat 32 w.bytes ∧ memRead w t.mem (lowAddr t.sp) = x.get s ∧
      Outside [] (span (lowAddr (s.sp - BitVec.ofNat 32 w.bytes)) w.bytes) [] s t) ∧
    ((Instr.pusha src).wellFormed = true → ∃ ea t, resolvePtr src lmPtr s = some ea ∧ Completes (.pusha src) 1 s t ∧
      t.sp = s.sp - 4#32 ∧ (read32 t.mem (lowAddr (s.sp - 4#32))).toNat = ea.toNat ∧
      Outside [] (span (lowAddr (s.sp - 4#32)) 4) [] s t)

/-- POP of each size: the top of the stack into the operand, whose address is computed before SP moves. -/
def Obligations.PopResult : Prop :=
  ∀ (w : Width) (dst : Opnd) (s : State), s.mem.wf = true → (popOf w dst).wellFormed = true →
    ∃ y t, resolve dst w (lmValue w) .forbid s = some y ∧ Completes (popOf w dst) (inMem dst + 1) s t ∧
      t.sp = s.sp + BitVec.ofNat 32 w.bytes ∧ y.get t = memRead w s.mem (lowAddr s.sp) ∧
      Outside y.parts y.span [] s t

/-- LDC: FLG takes the value under the mask 0x071F; SP and INTB take all 32 bits. -/
def Obligations.LdcResult : Prop :=
  ∀ (src : Opnd) (s : State),
    ((Instr.ldcFlg src).wellFormed = true →
      ∃ x t, resolve src .word (lmValue .word) .allow s = some x ∧ Completes (.ldcFlg src) (inMem src) s t ∧
        (∀ k, t.flg.getLsbD k = ((x.get s).getLsbD k && (decide (k < 5) || (decide (8 ≤ k) && decide (k < 11))))) ∧
        KeepsRegs [] s t ∧ t.mem = s.mem ∧ t.sp = s.sp ∧ t.intb = s.intb ∧ t.diagBcd = s.diagBcd) ∧
    ((Instr.ldcSp src).wellFormed = true →
      ∃ x t, resolve src .long (lmValue .long) .allow s = some x ∧ Completes (.ldcSp src) (inMem src) s t ∧
        t.sp = x.get s ∧ t.mem = s.mem ∧ Outside [] [] [] s t) ∧
    ((Instr.ldcIntb src).wellFormed = true →
      ∃ x t, resolve src .long (lmValue .long) .allow s = some x ∧ Completes (.ldcIntb src) (inMem src) s t ∧
        t.intb = x.get s ∧ KeepsRegs [] s t ∧ t.mem = s.mem ∧ t.flg = s.flg ∧ t.sp = s.sp ∧ t.diagBcd = s.diagBcd)

/-- STC writes FLG (16 bits), SP or INTB (32 bits) to the operand. -/
def Obligations.StcResult : Prop :=
  ∀ (dst : Opnd) (s : State), s.mem.wf = true →
    ((Instr.stcFlg dst).wellFormed = true →
      ∃ y t, resolve dst .word (lmValue .word) .allow s = some y ∧ Completes (.stcFlg dst) (inMem dst) s t ∧
        (y.get t).toNat = s.flg.toNat ∧ Frame y.parts y.span [] s t) ∧
    ((Instr.stcSp dst).wellFormed = true →
      ∃ y t, resolve dst .long (lmValue .long) .allow s = some y ∧ Completes (.stcSp dst) (inMem dst) s t ∧
        y.get t = s.sp ∧ Frame y.parts y.span [] s t) ∧
    ((Instr.stcIntb dst).wellFormed = true →
      ∃ y t, resolve dst .long (lmValue .long) .allow s = some y ∧ Completes (.stcIntb dst) (inMem dst) s t ∧
        y.get t = s.intb ∧ Frame y.parts y.span [] s t)

/-! # Bits, conditions, prefixes -/

/-- BSET, BCLR, BNOT and BMcnd: one bit set, cleared, inverted, or set to the condition; no flag changes. BTST: Z is NOT the
bit and S is 0; nothing is written. -/
def Obligations.BitInstructions : Prop :=
  ∀ (bit : BitVec 3) (c : Cnd) (dst : Opnd) (s : State), s.mem.wf = true → (Instr.bset bit dst).wellFormed = true →
    WritesBit (.bset bit dst) bit dst (fun _ => true) s ∧ WritesBit (.bclr bit dst) bit dst (fun _ => false) s ∧
    WritesBit (.bnot bit dst) bit dst (fun old => !old) s ∧
    WritesBit (.bmCnd bit c dst) bit dst (fun _ => condFormula c s.flg) s ∧
    ∃ y k t, resolveBit dst bit s = some (y, k) ∧ Completes (.btst bit dst) (inMem dst) s t ∧
      getFlag .z t.flg = !(y.get s).toNat.testBit k ∧ getFlag .s t.flg = false ∧ Frame [] [] zs s t

/-- SCcnd writes a 16-bit 1 or 0 by the condition; every operand form is legal. -/
def Obligations.ScCndResult : Prop :=
  ∀ (c : Cnd) (dst : Opnd) (s : State), s.mem.wf = true →
    ∃ y t, resolve dst .word (lmValue .word) .allow s = some y ∧ y.width = .word ∧
      Completes (.scCnd c dst) (inMem dst) s t ∧ (y.get t).toNat = (condFormula c s.flg).toNat ∧
      Frame y.parts y.span [] s t

/-- The prefix instructions, with their scales and kinds; every operand form is legal, and nothing but PC, CYC, STICKY and
INHIBIT changes. -/
def Obligations.PrefixesArm : Prop :=
  ∀ (src : Opnd) (s : State),
    Arms (.indexbB src) .byte src 1 .addr s ∧ Arms (.indexbW src) .word src 1 .addr s ∧
    Arms (.indexwB src) .byte src 2 .addr s ∧ Arms (.indexwW src) .word src 2 .addr s ∧
    Arms (.indexlB src) .byte src 4 .addr s ∧ Arms (.indexlW src) .word src 4 .addr s ∧
    Arms (.bitindexB src) .byte src 1 .bit s ∧ Arms (.bitindexW src) .word src 1 .bit s

/-! # Control transfer -/

/-- Jcnd: PC becomes the next instruction's address plus the signed displacement if the condition holds, else the next
instruction's address; the cost is the same; nothing else changes. -/
def Obligations.JumpConditional : Prop :=
  ∀ (c : Cnd) (rel : BitVec 8) (s : State),
    ∃ t, Ends (.jCnd c rel) 0 s t ∧ encode (.jCnd c rel) = [0xE0#8 + c.code.setWidth 8, rel] ∧
      (t.pc.toNat : Int) = ((s.pc.toNat : Int) + 2 + if condFormula c s.flg then rel.toInt else 0) % 2 ^ 24 ∧
      t.mem = s.mem ∧ t.flg = s.flg ∧ Frame [] [] [] s t

/-- JMP.W: PC becomes the next instruction's address plus the signed displacement, modulo `2^24`. JMP.A: PC becomes the
24-bit address in the instruction. Nothing else changes but CYC and STICKY. -/
def Obligations.JumpUnconditional : Prop :=
  ∀ (rel : BitVec 16) (target : Addr) (s : State),
    encode (.jmpW rel) = [0xF0#8, rel.extractLsb' 0 8, rel.extractLsb' 8 8] ∧
    exec (.jmpW rel) s =
      .next { s with pc := BitVec.ofInt 24 (s.pc.toNat + 3 + rel.toInt), cyc := s.cyc + 3, sticky := .idle } ∧
    encode (.jmpA target) = [0xF1#8, target.extractLsb' 0 8, target.extractLsb' 8 8, target.extractLsb' 16 8] ∧
    exec (.jmpA target) s = .next { s with pc := target, cyc := s.cyc + 4, sticky := .idle }

/-- JMPI: PC becomes the low 24 bits of the 32-bit word at the effective address; nothing else changes. -/
def Obligations.JumpIndirect : Prop :=
  ∀ (src : Opnd) (s : State), (Instr.jmpi src).wellFormed = true →
    ∃ ea t, resolvePtr src lmPtr s = some ea ∧ Ends (.jmpi src) 1 s t ∧
      t.pc.toNat = (read32 s.mem ea).toNat % 2 ^ 24 ∧ t.mem = s.mem ∧ Frame [] [] [] s t

/-- JSR.W, JSR.A and JSRI push the next instruction's address, zero-extended to 32 bits, and go to their target; JSRI reads
its table entry before the push. -/
def Obligations.CallsPushReturnAddress : Prop :=
  ∀ (rel : BitVec 16) (target : Addr) (src : Opnd) (s : State), s.mem.wf = true →
    (∃ t, Ends (.jsrW rel) 1 s t ∧ (t.pc.toNat : Int) = ((s.pc.toNat : Int) + 3 + rel.toInt) % 2 ^ 24 ∧
      t.sp = s.sp - 4#32 ∧ (read32 t.mem (lowAddr (s.sp - 4#32))).toNat = (s.pc.toNat + 3) % 2 ^ 24 ∧
      Outside [] (span (lowAddr (s.sp - 4#32)) 4) [] s t) ∧
    (∃ t, Ends (.jsrA target) 1 s t ∧ t.pc = target ∧
      t.sp = s.sp - 4#32 ∧ (read32 t.mem (lowAddr (s.sp - 4#32))).toNat = (s.pc.toNat + 4) % 2 ^ 24 ∧
      Outside [] (span (lowAddr (s.sp - 4#32)) 4) [] s t) ∧
    ((Instr.jsri src).wellFormed = true →
      ∃ ea t, resolvePtr src lmPtr s = some ea ∧ Ends (.jsri src) 2 s t ∧
        t.pc.toNat = (read32 s.mem ea).toNat % 2 ^ 24 ∧ t.sp = s.sp - 4#32 ∧
        (read32 t.mem (lowAddr (s.sp - 4#32))).toNat = (s.pc.toNat + (encode (.jsri src)).length) % 2 ^ 24 ∧
        Outside [] (span (lowAddr (s.sp - 4#32)) 4) [] s t)

/-- RTS: PC becomes the low 24 bits of the 32-bit word at the top of the stack, SP moves past it; nothing else changes. -/
def Obligations.ReturnPops : Prop :=
  ∀ s : State, encode .rts = [0xF4#8] ∧
    exec .rts s =
      .next { s with pc := (read32 s.mem (s.sp.setWidth 24)).setWidth 24, sp := s.sp + 4#32, cyc := s.cyc + 2,
                     sticky := .idle }

/-- A call by JSR.A, JSR.W or JSRI and then RTS, with the stack untouched in between, comes back to the instruction after the
call with SP and every general register as before. -/
def Obligations.CallThenReturn : Prop :=
  ∀ (i : Instr) (s t : State), s.mem.wf = true → i.wellFormed = true →
    ((∃ rel, i = .jsrW rel) ∨ (∃ target, i = .jsrA target) ∨ (∃ src, i = .jsri src)) → exec i s = .next t →
    ∃ u, exec .rts t = .next u ∧ u.pc.toNat = (s.pc.toNat + (encode i).length) % 2 ^ 24 ∧ u.sp = s.sp ∧ u.flg = s.flg ∧
      KeepsRegs [] s u

/-- INT takes the software interrupt: FLG and the next instruction's address are pushed, I is cleared and IPL kept, PC is
loaded from the vector, read after the pushes. -/
def Obligations.SoftwareInterrupt : Prop :=
  ∀ (v : BitVec 8) (s : State), s.mem.wf = true →
    ∃ t, Ends (.int v) 3 s t ∧ t.sp = s.sp - 6#32 ∧
      (read32 t.mem (lowAddr (s.sp - 6#32))).toNat = (s.pc.toNat + 2) % 2 ^ 24 ∧
      read16 t.mem (lowAddr (s.sp - 2#32)) = s.flg ∧ getFlag .i t.flg = false ∧
      t.pc = lowAddr (read32 t.mem (BitVec.ofNat 24 (s.intb.toNat + 4 * v.toNat))) ∧
      Outside [] (span (lowAddr (s.sp - 6#32)) 6) [4] s t

/-- REIT pops the return address and then FLG, which is loaded under the mask 0x071F. -/
def Obligations.InterruptReturn : Prop :=
  ∀ s : State, encode .reit = [0xF5#8] ∧
    exec .reit s =
      .next { s with pc := (read32 s.mem (s.sp.setWidth 24)).setWidth 24,
                     flg := read16 s.mem ((s.sp + 4#32).setWidth 24) &&& 0x071F#16, sp := s.sp + 6#32,
                     cyc := s.cyc + 3, sticky := .idle }

/-- REIT undoes an interrupt entry or an INT. Right after the entry of an accepted request at a boundary it comes back to the
instruction the entry interrupted, right after INT to the instruction after INT, and in both cases FLG and SP are as before,
the general registers are unchanged and so is every byte outside the six pushed. The first clause says the same of the shared
entry with any level and return address. -/
def Obligations.ReturnUndoesEntry : Prop :=
  ∀ s : State, s.mem.wf = true → s.flg &&& 0x071F#16 = s.flg →
    (∀ (level : Option IntLevel) (ret : Addr) (v : BitVec 8),
      ∃ u, exec .reit (enterVector level ret v s) = .next u ∧ u.pc = ret ∧ u.flg = s.flg ∧ u.sp = s.sp ∧
        Outside [] (span (lowAddr (s.sp - 6#32)) 6) [] s u) ∧
    (∀ v : BitVec 8,
      ∃ t u, exec (.int v) s = .next t ∧ exec .reit t = .next u ∧ u.pc.toNat = (s.pc.toNat + 2) % 2 ^ 24 ∧
        u.flg = s.flg ∧ u.sp = s.sp ∧ Outside [] (span (lowAddr (s.sp - 6#32)) 6) [] s u) ∧
    ∀ (r : Irq) (q : List (Option Irq)), s.inhibit = false → s.irq = some r :: q → getFlag .i s.flg = true →
      (getIpl s.flg).toNat < levelNumber r.level →
      (boundary s).acks = s.acks ++ [r] ∧
      ∃ u, exec .reit (boundary s) = .next u ∧ u.pc = s.pc ∧ u.flg = s.flg ∧ u.sp = s.sp ∧
        Outside [] (span (lowAddr (s.sp - 6#32)) 6) [] s u

/-- FSET and FCLR write the one flag they name, and their encodings number the flags C, Z, S, O, I. -/
def Obligations.FlagInstructions : Prop :=
  ∀ s : State,
    (∀ p ∈ [(Instr.fsetC, 0), (.fsetZ, 1), (.fsetS, 2), (.fsetO, 3), (.fsetI, 4)],
      encode p.1 = [BitVec.ofNat 8 (0xD8 + p.2)] ∧
      ∃ t, Completes p.1 0 s t ∧ t.flg.getLsbD p.2 = true ∧ Frame [] [] [p.2] s t) ∧
    (∀ p ∈ [(Instr.fclrC, 0), (.fclrZ, 1), (.fclrS, 2), (.fclrO, 3), (.fclrI, 4)],
      encode p.1 = [BitVec.ofNat 8 (0xF8 + p.2)] ∧
      ∃ t, Completes p.1 0 s t ∧ t.flg.getLsbD p.2 = false ∧ Frame [] [] [p.2] s t)

/-- NOP moves PC by 1, adds 1 to CYC, consumes an armed index, and is followed by the boundary check. -/
def Obligations.NopRuns : Prop :=
  encode .nop = [0x01#8] ∧
  ∀ s : State,
    exec .nop s = .next { s with pc := s.pc + 1#24, cyc := s.cyc + 1, sticky := .idle } ∧
    (s.halted = false → read8 s.mem s.pc = 0x01#8 →
      step s = .next (boundary { s with pc := s.pc + 1#24, cyc := s.cyc + 1, sticky := .idle }))

/-! # The register port -/

/-- The register port, at every offset and size. A read gives the bytes of the image, item by item, and changes at most
DIAG.mcra. A write replaces exactly the bytes it selects, each under the mask of its item, and leaves every other byte of the
register items as it was; it changes nothing that is no writable item but DIAG.mcra. A misaligned access of the control items
sets DIAG.mcra and is performed all the same; any other leaves it as it was. What is written at a conforming place is read
back, under the mask of FLG and PC. That a misaligned read which reaches STATUS shows the DIAG.mcra it sets itself is the
model's choice (notes/assumptions/19.md); that the size is a width is its form of R420 (notes/assumptions/14.md). The clause
on written bytes is for states whose hard-wired FLG bits are 0, as StepKeepsInv keeps them. -/
def Obligations.RegisterPort : Prop :=
  ∀ (s : State) (off : Nat) (w : Width) (v : Val),
    (∃ a, portRead off w s = a ∧
      a.1.toNat = imageValue a.2 off w.bytes ∧ (Misaligned off w.bytes → a.2 = { s with diagMcra := true }) ∧
      (¬ Misaligned off w.bytes → a.2 = s)) ∧
    (∃ t, portWrite off w v s = t ∧
      (s.flg &&& 0x071F#16 = s.flg → ∀ k, k < 0x20 →
        imageByte t k =
          if off ≤ k ∧ k < off + w.bytes then byteOf v.toNat (k - off) &&& writeMask k else imageByte s k) ∧
      (Misaligned off w.bytes → t.diagMcra = true) ∧ (¬ Misaligned off w.bytes → t.diagMcra = s.diagMcra) ∧
      t.sticky = s.sticky ∧ t.inhibit = s.inhibit ∧ t.halted = s.halted ∧ t.fault = s.fault ∧ t.diagBcd = s.diagBcd ∧
      t.cyc = s.cyc ∧ t.mem = s.mem ∧ t.irq = s.irq ∧ t.acks = s.acks ∧
      (off + w.bytes ≤ 0x10 → (portRead off w t).1.toNat = v.toNat % 2 ^ w.bits)) ∧
    (portRead 0x10 .long (portWrite 0x10 .long v s)).1 = v ∧ (portRead 0x14 .long (portWrite 0x14 .long v s)).1 = v ∧
    (portRead 0x18 .word (portWrite 0x18 .word v s)).1.toNat = v.toNat % 2 ^ 16 &&& 0x071F ∧
    (portRead 0x18 .long (portWrite 0x18 .long v s)).1.toNat = v.toNat % 2 ^ 16 &&& 0x071F ∧
    (portRead 0x1A .word (portWrite 0x1A .word v s)).1 = 0 ∧
    (portRead 0x1C .long (portWrite 0x1C .long v s)).1.toNat = v.toNat % 2 ^ 24 ∧
    (portWrite 0x18 .word v s).flg = v.setWidth 16 &&& 0x071F#16 ∧ (portWrite 0x1C .long v s).pc = v.setWidth 24

end
end

