-- ==== Sys2Proof/Laws/State.lean ====
section
/-! SUPPORT. One lemma for each field of State and each named update of it, so that no proof unfolds a record update. -/

namespace Sys2Proof.Machine

open Sys2Proof

/-! ## complete -/

@[simp] theorem complete_r0 (p : Addr) (len nacc : Nat) (s : State) : (complete p len nacc s).r0 = s.r0 := rfl
@[simp] theorem complete_r1 (p : Addr) (len nacc : Nat) (s : State) : (complete p len nacc s).r1 = s.r1 := rfl
@[simp] theorem complete_r2 (p : Addr) (len nacc : Nat) (s : State) : (complete p len nacc s).r2 = s.r2 := rfl
@[simp] theorem complete_r3 (p : Addr) (len nacc : Nat) (s : State) : (complete p len nacc s).r3 = s.r3 := rfl
@[simp] theorem complete_a0 (p : Addr) (len nacc : Nat) (s : State) : (complete p len nacc s).a0 = s.a0 := rfl
@[simp] theorem complete_a1 (p : Addr) (len nacc : Nat) (s : State) : (complete p len nacc s).a1 = s.a1 := rfl
@[simp] theorem complete_sp (p : Addr) (len nacc : Nat) (s : State) : (complete p len nacc s).sp = s.sp := rfl
@[simp] theorem complete_intb (p : Addr) (len nacc : Nat) (s : State) : (complete p len nacc s).intb = s.intb := rfl
@[simp] theorem complete_flg (p : Addr) (len nacc : Nat) (s : State) : (complete p len nacc s).flg = s.flg := rfl
@[simp] theorem complete_pc (p : Addr) (len nacc : Nat) (s : State) : (complete p len nacc s).pc = p := rfl
@[simp] theorem complete_sticky (p : Addr) (len nacc : Nat) (s : State) : (complete p len nacc s).sticky = .idle := rfl
@[simp] theorem complete_inhibit (p : Addr) (len nacc : Nat) (s : State) : (complete p len nacc s).inhibit = s.inhibit := rfl
@[simp] theorem complete_halted (p : Addr) (len nacc : Nat) (s : State) : (complete p len nacc s).halted = s.halted := rfl
@[simp] theorem complete_fault (p : Addr) (len nacc : Nat) (s : State) : (complete p len nacc s).fault = s.fault := rfl
@[simp] theorem complete_diagMcra (p : Addr) (len nacc : Nat) (s : State) : (complete p len nacc s).diagMcra = s.diagMcra := rfl
@[simp] theorem complete_diagBcd (p : Addr) (len nacc : Nat) (s : State) : (complete p len nacc s).diagBcd = s.diagBcd := rfl
@[simp] theorem complete_cyc (p : Addr) (len nacc : Nat) (s : State) : (complete p len nacc s).cyc = s.cyc + len + nacc := rfl
@[simp] theorem complete_mem (p : Addr) (len nacc : Nat) (s : State) : (complete p len nacc s).mem = s.mem := rfl
@[simp] theorem complete_irq (p : Addr) (len nacc : Nat) (s : State) : (complete p len nacc s).irq = s.irq := rfl
@[simp] theorem complete_acks (p : Addr) (len nacc : Nat) (s : State) : (complete p len nacc s).acks = s.acks := rfl

/-! ## advance -/

@[simp] theorem advance_r0 (len nacc : Nat) (s : State) : (advance len nacc s).r0 = s.r0 := rfl
@[simp] theorem advance_r1 (len nacc : Nat) (s : State) : (advance len nacc s).r1 = s.r1 := rfl
@[simp] theorem advance_r2 (len nacc : Nat) (s : State) : (advance len nacc s).r2 = s.r2 := rfl
@[simp] theorem advance_r3 (len nacc : Nat) (s : State) : (advance len nacc s).r3 = s.r3 := rfl
@[simp] theorem advance_a0 (len nacc : Nat) (s : State) : (advance len nacc s).a0 = s.a0 := rfl
@[simp] theorem advance_a1 (len nacc : Nat) (s : State) : (advance len nacc s).a1 = s.a1 := rfl
@[simp] theorem advance_sp (len nacc : Nat) (s : State) : (advance len nacc s).sp = s.sp := rfl
@[simp] theorem advance_intb (len nacc : Nat) (s : State) : (advance len nacc s).intb = s.intb := rfl
@[simp] theorem advance_flg (len nacc : Nat) (s : State) : (advance len nacc s).flg = s.flg := rfl
@[simp] theorem advance_pc (len nacc : Nat) (s : State) : (advance len nacc s).pc = nextPc s len := rfl
@[simp] theorem advance_sticky (len nacc : Nat) (s : State) : (advance len nacc s).sticky = .idle := rfl
@[simp] theorem advance_inhibit (len nacc : Nat) (s : State) : (advance len nacc s).inhibit = s.inhibit := rfl
@[simp] theorem advance_halted (len nacc : Nat) (s : State) : (advance len nacc s).halted = s.halted := rfl
@[simp] theorem advance_fault (len nacc : Nat) (s : State) : (advance len nacc s).fault = s.fault := rfl
@[simp] theorem advance_diagMcra (len nacc : Nat) (s : State) : (advance len nacc s).diagMcra = s.diagMcra := rfl
@[simp] theorem advance_diagBcd (len nacc : Nat) (s : State) : (advance len nacc s).diagBcd = s.diagBcd := rfl
@[simp] theorem advance_cyc (len nacc : Nat) (s : State) : (advance len nacc s).cyc = s.cyc + len + nacc := rfl
@[simp] theorem advance_mem (len nacc : Nat) (s : State) : (advance len nacc s).mem = s.mem := rfl
@[simp] theorem advance_irq (len nacc : Nat) (s : State) : (advance len nacc s).irq = s.irq := rfl
@[simp] theorem advance_acks (len nacc : Nat) (s : State) : (advance len nacc s).acks = s.acks := rfl

/-! ## advanceArmed -/

@[simp] theorem advanceArmed_r0 (v : BitVec 24) (k : StickyKind) (len nacc : Nat) (s : State) : (advanceArmed v k len nacc s).r0 = s.r0 := rfl
@[simp] theorem advanceArmed_r1 (v : BitVec 24) (k : StickyKind) (len nacc : Nat) (s : State) : (advanceArmed v k len nacc s).r1 = s.r1 := rfl
@[simp] theorem advanceArmed_r2 (v : BitVec 24) (k : StickyKind) (len nacc : Nat) (s : State) : (advanceArmed v k len nacc s).r2 = s.r2 := rfl
@[simp] theorem advanceArmed_r3 (v : BitVec 24) (k : StickyKind) (len nacc : Nat) (s : State) : (advanceArmed v k len nacc s).r3 = s.r3 := rfl
@[simp] theorem advanceArmed_a0 (v : BitVec 24) (k : StickyKind) (len nacc : Nat) (s : State) : (advanceArmed v k len nacc s).a0 = s.a0 := rfl
@[simp] theorem advanceArmed_a1 (v : BitVec 24) (k : StickyKind) (len nacc : Nat) (s : State) : (advanceArmed v k len nacc s).a1 = s.a1 := rfl
@[simp] theorem advanceArmed_sp (v : BitVec 24) (k : StickyKind) (len nacc : Nat) (s : State) : (advanceArmed v k len nacc s).sp = s.sp := rfl
@[simp] theorem advanceArmed_intb (v : BitVec 24) (k : StickyKind) (len nacc : Nat) (s : State) : (advanceArmed v k len nacc s).intb = s.intb := rfl
@[simp] theorem advanceArmed_flg (v : BitVec 24) (k : StickyKind) (len nacc : Nat) (s : State) : (advanceArmed v k len nacc s).flg = s.flg := rfl
@[simp] theorem advanceArmed_pc (v : BitVec 24) (k : StickyKind) (len nacc : Nat) (s : State) : (advanceArmed v k len nacc s).pc = nextPc s len := rfl
@[simp] theorem advanceArmed_sticky (v : BitVec 24) (k : StickyKind) (len nacc : Nat) (s : State) : (advanceArmed v k len nacc s).sticky = .armed v k := rfl
@[simp] theorem advanceArmed_inhibit (v : BitVec 24) (k : StickyKind) (len nacc : Nat) (s : State) : (advanceArmed v k len nacc s).inhibit = true := rfl
@[simp] theorem advanceArmed_halted (v : BitVec 24) (k : StickyKind) (len nacc : Nat) (s : State) : (advanceArmed v k len nacc s).halted = s.halted := rfl
@[simp] theorem advanceArmed_fault (v : BitVec 24) (k : StickyKind) (len nacc : Nat) (s : State) : (advanceArmed v k len nacc s).fault = s.fault := rfl
@[simp] theorem advanceArmed_diagMcra (v : BitVec 24) (k : StickyKind) (len nacc : Nat) (s : State) : (advanceArmed v k len nacc s).diagMcra = s.diagMcra := rfl
@[simp] theorem advanceArmed_diagBcd (v : BitVec 24) (k : StickyKind) (len nacc : Nat) (s : State) : (advanceArmed v k len nacc s).diagBcd = s.diagBcd := rfl
@[simp] theorem advanceArmed_cyc (v : BitVec 24) (k : StickyKind) (len nacc : Nat) (s : State) : (advanceArmed v k len nacc s).cyc = s.cyc + len + nacc := rfl
@[simp] theorem advanceArmed_mem (v : BitVec 24) (k : StickyKind) (len nacc : Nat) (s : State) : (advanceArmed v k len nacc s).mem = s.mem := rfl
@[simp] theorem advanceArmed_irq (v : BitVec 24) (k : StickyKind) (len nacc : Nat) (s : State) : (advanceArmed v k len nacc s).irq = s.irq := rfl
@[simp] theorem advanceArmed_acks (v : BitVec 24) (k : StickyKind) (len nacc : Nat) (s : State) : (advanceArmed v k len nacc s).acks = s.acks := rfl

/-! ## fatalEntry -/

@[simp] theorem fatalEntry_r0 (k : FatalKind) (b0 : Byte) (s : State) : (fatalEntry k b0 s).r0 = s.r0 := rfl
@[simp] theorem fatalEntry_r1 (k : FatalKind) (b0 : Byte) (s : State) : (fatalEntry k b0 s).r1 = s.r1 := rfl
@[simp] theorem fatalEntry_r2 (k : FatalKind) (b0 : Byte) (s : State) : (fatalEntry k b0 s).r2 = s.r2 := rfl
@[simp] theorem fatalEntry_r3 (k : FatalKind) (b0 : Byte) (s : State) : (fatalEntry k b0 s).r3 = s.r3 := rfl
@[simp] theorem fatalEntry_a0 (k : FatalKind) (b0 : Byte) (s : State) : (fatalEntry k b0 s).a0 = s.a0 := rfl
@[simp] theorem fatalEntry_a1 (k : FatalKind) (b0 : Byte) (s : State) : (fatalEntry k b0 s).a1 = s.a1 := rfl
@[simp] theorem fatalEntry_sp (k : FatalKind) (b0 : Byte) (s : State) : (fatalEntry k b0 s).sp = s.sp := rfl
@[simp] theorem fatalEntry_intb (k : FatalKind) (b0 : Byte) (s : State) : (fatalEntry k b0 s).intb = s.intb := rfl
@[simp] theorem fatalEntry_flg (k : FatalKind) (b0 : Byte) (s : State) : (fatalEntry k b0 s).flg = s.flg := rfl
@[simp] theorem fatalEntry_pc (k : FatalKind) (b0 : Byte) (s : State) : (fatalEntry k b0 s).pc = s.pc := rfl
@[simp] theorem fatalEntry_sticky (k : FatalKind) (b0 : Byte) (s : State) : (fatalEntry k b0 s).sticky = s.sticky := rfl
@[simp] theorem fatalEntry_inhibit (k : FatalKind) (b0 : Byte) (s : State) : (fatalEntry k b0 s).inhibit = s.inhibit := rfl
@[simp] theorem fatalEntry_halted (k : FatalKind) (b0 : Byte) (s : State) : (fatalEntry k b0 s).halted = true := rfl
@[simp] theorem fatalEntry_fault (k : FatalKind) (b0 : Byte) (s : State) : (fatalEntry k b0 s).fault = some ⟨k, s.pc, b0⟩ := rfl
@[simp] theorem fatalEntry_diagMcra (k : FatalKind) (b0 : Byte) (s : State) : (fatalEntry k b0 s).diagMcra = s.diagMcra := rfl
@[simp] theorem fatalEntry_diagBcd (k : FatalKind) (b0 : Byte) (s : State) : (fatalEntry k b0 s).diagBcd = s.diagBcd := rfl
@[simp] theorem fatalEntry_cyc (k : FatalKind) (b0 : Byte) (s : State) : (fatalEntry k b0 s).cyc = s.cyc := rfl
@[simp] theorem fatalEntry_mem (k : FatalKind) (b0 : Byte) (s : State) : (fatalEntry k b0 s).mem = s.mem := rfl
@[simp] theorem fatalEntry_irq (k : FatalKind) (b0 : Byte) (s : State) : (fatalEntry k b0 s).irq = s.irq := rfl
@[simp] theorem fatalEntry_acks (k : FatalKind) (b0 : Byte) (s : State) : (fatalEntry k b0 s).acks = s.acks := rfl

/-! ## push -/

@[simp] theorem push_r0 (w : Width) (v : Val) (s : State) : (push w v s).r0 = s.r0 := rfl
@[simp] theorem push_r1 (w : Width) (v : Val) (s : State) : (push w v s).r1 = s.r1 := rfl
@[simp] theorem push_r2 (w : Width) (v : Val) (s : State) : (push w v s).r2 = s.r2 := rfl
@[simp] theorem push_r3 (w : Width) (v : Val) (s : State) : (push w v s).r3 = s.r3 := rfl
@[simp] theorem push_a0 (w : Width) (v : Val) (s : State) : (push w v s).a0 = s.a0 := rfl
@[simp] theorem push_a1 (w : Width) (v : Val) (s : State) : (push w v s).a1 = s.a1 := rfl
@[simp] theorem push_sp (w : Width) (v : Val) (s : State) : (push w v s).sp = pushedSp w s := rfl
@[simp] theorem push_intb (w : Width) (v : Val) (s : State) : (push w v s).intb = s.intb := rfl
@[simp] theorem push_flg (w : Width) (v : Val) (s : State) : (push w v s).flg = s.flg := rfl
@[simp] theorem push_pc (w : Width) (v : Val) (s : State) : (push w v s).pc = s.pc := rfl
@[simp] theorem push_sticky (w : Width) (v : Val) (s : State) : (push w v s).sticky = s.sticky := rfl
@[simp] theorem push_inhibit (w : Width) (v : Val) (s : State) : (push w v s).inhibit = s.inhibit := rfl
@[simp] theorem push_halted (w : Width) (v : Val) (s : State) : (push w v s).halted = s.halted := rfl
@[simp] theorem push_fault (w : Width) (v : Val) (s : State) : (push w v s).fault = s.fault := rfl
@[simp] theorem push_diagMcra (w : Width) (v : Val) (s : State) : (push w v s).diagMcra = s.diagMcra := rfl
@[simp] theorem push_diagBcd (w : Width) (v : Val) (s : State) : (push w v s).diagBcd = s.diagBcd := rfl
@[simp] theorem push_cyc (w : Width) (v : Val) (s : State) : (push w v s).cyc = s.cyc := rfl
@[simp] theorem push_mem (w : Width) (v : Val) (s : State) : (push w v s).mem = memWrite w s.mem (lowAddr (pushedSp w s)) v := rfl
@[simp] theorem push_irq (w : Width) (v : Val) (s : State) : (push w v s).irq = s.irq := rfl
@[simp] theorem push_acks (w : Width) (v : Val) (s : State) : (push w v s).acks = s.acks := rfl

/-! ## popState -/

@[simp] theorem popState_r0 (w : Width) (s : State) : (popState w s).r0 = s.r0 := rfl
@[simp] theorem popState_r1 (w : Width) (s : State) : (popState w s).r1 = s.r1 := rfl
@[simp] theorem popState_r2 (w : Width) (s : State) : (popState w s).r2 = s.r2 := rfl
@[simp] theorem popState_r3 (w : Width) (s : State) : (popState w s).r3 = s.r3 := rfl
@[simp] theorem popState_a0 (w : Width) (s : State) : (popState w s).a0 = s.a0 := rfl
@[simp] theorem popState_a1 (w : Width) (s : State) : (popState w s).a1 = s.a1 := rfl
@[simp] theorem popState_sp (w : Width) (s : State) : (popState w s).sp = s.sp + BitVec.ofNat 32 w.bytes := rfl
@[simp] theorem popState_intb (w : Width) (s : State) : (popState w s).intb = s.intb := rfl
@[simp] theorem popState_flg (w : Width) (s : State) : (popState w s).flg = s.flg := rfl
@[simp] theorem popState_pc (w : Width) (s : State) : (popState w s).pc = s.pc := rfl
@[simp] theorem popState_sticky (w : Width) (s : State) : (popState w s).sticky = s.sticky := rfl
@[simp] theorem popState_inhibit (w : Width) (s : State) : (popState w s).inhibit = s.inhibit := rfl
@[simp] theorem popState_halted (w : Width) (s : State) : (popState w s).halted = s.halted := rfl
@[simp] theorem popState_fault (w : Width) (s : State) : (popState w s).fault = s.fault := rfl
@[simp] theorem popState_diagMcra (w : Width) (s : State) : (popState w s).diagMcra = s.diagMcra := rfl
@[simp] theorem popState_diagBcd (w : Width) (s : State) : (popState w s).diagBcd = s.diagBcd := rfl
@[simp] theorem popState_cyc (w : Width) (s : State) : (popState w s).cyc = s.cyc := rfl
@[simp] theorem popState_mem (w : Width) (s : State) : (popState w s).mem = s.mem := rfl
@[simp] theorem popState_irq (w : Width) (s : State) : (popState w s).irq = s.irq := rfl
@[simp] theorem popState_acks (w : Width) (s : State) : (popState w s).acks = s.acks := rfl

/-! ## A register view written: no field outside the general registers changes -/

@[simp] theorem View.write_sp (v : View) (x : Val) (s : State) : (v.write x s).sp = s.sp := by
  cases v <;> rfl
@[simp] theorem View.write_intb (v : View) (x : Val) (s : State) : (v.write x s).intb = s.intb := by
  cases v <;> rfl
@[simp] theorem View.write_flg (v : View) (x : Val) (s : State) : (v.write x s).flg = s.flg := by
  cases v <;> rfl
@[simp] theorem View.write_pc (v : View) (x : Val) (s : State) : (v.write x s).pc = s.pc := by
  cases v <;> rfl
@[simp] theorem View.write_sticky (v : View) (x : Val) (s : State) : (v.write x s).sticky = s.sticky := by
  cases v <;> rfl
@[simp] theorem View.write_inhibit (v : View) (x : Val) (s : State) : (v.write x s).inhibit = s.inhibit := by
  cases v <;> rfl
@[simp] theorem View.write_halted (v : View) (x : Val) (s : State) : (v.write x s).halted = s.halted := by
  cases v <;> rfl
@[simp] theorem View.write_fault (v : View) (x : Val) (s : State) : (v.write x s).fault = s.fault := by
  cases v <;> rfl
@[simp] theorem View.write_diagMcra (v : View) (x : Val) (s : State) : (v.write x s).diagMcra = s.diagMcra := by
  cases v <;> rfl
@[simp] theorem View.write_diagBcd (v : View) (x : Val) (s : State) : (v.write x s).diagBcd = s.diagBcd := by
  cases v <;> rfl
@[simp] theorem View.write_cyc (v : View) (x : Val) (s : State) : (v.write x s).cyc = s.cyc := by
  cases v <;> rfl
@[simp] theorem View.write_mem (v : View) (x : Val) (s : State) : (v.write x s).mem = s.mem := by
  cases v <;> rfl
@[simp] theorem View.write_irq (v : View) (x : Val) (s : State) : (v.write x s).irq = s.irq := by
  cases v <;> rfl
@[simp] theorem View.write_acks (v : View) (x : Val) (s : State) : (v.write x s).acks = s.acks := by
  cases v <;> rfl

/-! ## An accessor set: no field outside the general registers and memory changes -/

@[simp] theorem Acc.set_sp (y : Acc) (x : Val) (s : State) : (y.set x s).sp = s.sp := by
  cases y <;> simp [Acc.set]
@[simp] theorem Acc.set_intb (y : Acc) (x : Val) (s : State) : (y.set x s).intb = s.intb := by
  cases y <;> simp [Acc.set]
@[simp] theorem Acc.set_flg (y : Acc) (x : Val) (s : State) : (y.set x s).flg = s.flg := by
  cases y <;> simp [Acc.set]
@[simp] theorem Acc.set_pc (y : Acc) (x : Val) (s : State) : (y.set x s).pc = s.pc := by
  cases y <;> simp [Acc.set]
@[simp] theorem Acc.set_sticky (y : Acc) (x : Val) (s : State) : (y.set x s).sticky = s.sticky := by
  cases y <;> simp [Acc.set]
@[simp] theorem Acc.set_inhibit (y : Acc) (x : Val) (s : State) : (y.set x s).inhibit = s.inhibit := by
  cases y <;> simp [Acc.set]
@[simp] theorem Acc.set_halted (y : Acc) (x : Val) (s : State) : (y.set x s).halted = s.halted := by
  cases y <;> simp [Acc.set]
@[simp] theorem Acc.set_fault (y : Acc) (x : Val) (s : State) : (y.set x s).fault = s.fault := by
  cases y <;> simp [Acc.set]
@[simp] theorem Acc.set_diagMcra (y : Acc) (x : Val) (s : State) : (y.set x s).diagMcra = s.diagMcra := by
  cases y <;> simp [Acc.set]
@[simp] theorem Acc.set_diagBcd (y : Acc) (x : Val) (s : State) : (y.set x s).diagBcd = s.diagBcd := by
  cases y <;> simp [Acc.set]
@[simp] theorem Acc.set_cyc (y : Acc) (x : Val) (s : State) : (y.set x s).cyc = s.cyc := by
  cases y <;> simp [Acc.set]
@[simp] theorem Acc.set_irq (y : Acc) (x : Val) (s : State) : (y.set x s).irq = s.irq := by
  cases y <;> simp [Acc.set]
@[simp] theorem Acc.set_acks (y : Acc) (x : Val) (s : State) : (y.set x s).acks = s.acks := by
  cases y <;> simp [Acc.set]

/-! ## Entering and leaving a vector -/

@[simp] theorem enterVector_r0 (l : Option IntLevel) (ret : Addr) (v : BitVec 8) (s : State) :
    (enterVector l ret v s).r0 = s.r0 := rfl
@[simp] theorem enterVector_r1 (l : Option IntLevel) (ret : Addr) (v : BitVec 8) (s : State) :
    (enterVector l ret v s).r1 = s.r1 := rfl
@[simp] theorem enterVector_r2 (l : Option IntLevel) (ret : Addr) (v : BitVec 8) (s : State) :
    (enterVector l ret v s).r2 = s.r2 := rfl
@[simp] theorem enterVector_r3 (l : Option IntLevel) (ret : Addr) (v : BitVec 8) (s : State) :
    (enterVector l ret v s).r3 = s.r3 := rfl
@[simp] theorem enterVector_a0 (l : Option IntLevel) (ret : Addr) (v : BitVec 8) (s : State) :
    (enterVector l ret v s).a0 = s.a0 := rfl
@[simp] theorem enterVector_a1 (l : Option IntLevel) (ret : Addr) (v : BitVec 8) (s : State) :
    (enterVector l ret v s).a1 = s.a1 := rfl
@[simp] theorem enterVector_sp (l : Option IntLevel) (ret : Addr) (v : BitVec 8) (s : State) :
    (enterVector l ret v s).sp = pushedSp .long (push .word (s.flg.setWidth 32) s) := rfl
@[simp] theorem enterVector_intb (l : Option IntLevel) (ret : Addr) (v : BitVec 8) (s : State) :
    (enterVector l ret v s).intb = s.intb := rfl
@[simp] theorem enterVector_flg (l : Option IntLevel) (ret : Addr) (v : BitVec 8) (s : State) :
    (enterVector l ret v s).flg = flagsIntEntry l s.flg := rfl
@[simp] theorem enterVector_sticky (l : Option IntLevel) (ret : Addr) (v : BitVec 8) (s : State) :
    (enterVector l ret v s).sticky = s.sticky := rfl
@[simp] theorem enterVector_inhibit (l : Option IntLevel) (ret : Addr) (v : BitVec 8) (s : State) :
    (enterVector l ret v s).inhibit = s.inhibit := rfl
@[simp] theorem enterVector_halted (l : Option IntLevel) (ret : Addr) (v : BitVec 8) (s : State) :
    (enterVector l ret v s).halted = s.halted := rfl
@[simp] theorem enterVector_fault (l : Option IntLevel) (ret : Addr) (v : BitVec 8) (s : State) :
    (enterVector l ret v s).fault = s.fault := rfl
@[simp] theorem enterVector_diagMcra (l : Option IntLevel) (ret : Addr) (v : BitVec 8) (s : State) :
    (enterVector l ret v s).diagMcra = s.diagMcra := rfl
@[simp] theorem enterVector_diagBcd (l : Option IntLevel) (ret : Addr) (v : BitVec 8) (s : State) :
    (enterVector l ret v s).diagBcd = s.diagBcd := rfl
@[simp] theorem enterVector_cyc (l : Option IntLevel) (ret : Addr) (v : BitVec 8) (s : State) :
    (enterVector l ret v s).cyc = s.cyc := rfl
@[simp] theorem enterVector_irq (l : Option IntLevel) (ret : Addr) (v : BitVec 8) (s : State) :
    (enterVector l ret v s).irq = s.irq := rfl
@[simp] theorem enterVector_acks (l : Option IntLevel) (ret : Addr) (v : BitVec 8) (s : State) :
    (enterVector l ret v s).acks = s.acks := rfl
@[simp] theorem leaveVector_r0 (s : State) : (leaveVector s).2.r0 = s.r0 := rfl
@[simp] theorem leaveVector_r1 (s : State) : (leaveVector s).2.r1 = s.r1 := rfl
@[simp] theorem leaveVector_r2 (s : State) : (leaveVector s).2.r2 = s.r2 := rfl
@[simp] theorem leaveVector_r3 (s : State) : (leaveVector s).2.r3 = s.r3 := rfl
@[simp] theorem leaveVector_a0 (s : State) : (leaveVector s).2.a0 = s.a0 := rfl
@[simp] theorem leaveVector_a1 (s : State) : (leaveVector s).2.a1 = s.a1 := rfl
@[simp] theorem leaveVector_intb (s : State) : (leaveVector s).2.intb = s.intb := rfl
@[simp] theorem leaveVector_pc (s : State) : (leaveVector s).2.pc = s.pc := rfl
@[simp] theorem leaveVector_sticky (s : State) : (leaveVector s).2.sticky = s.sticky := rfl
@[simp] theorem leaveVector_inhibit (s : State) : (leaveVector s).2.inhibit = s.inhibit := rfl
@[simp] theorem leaveVector_halted (s : State) : (leaveVector s).2.halted = s.halted := rfl
@[simp] theorem leaveVector_fault (s : State) : (leaveVector s).2.fault = s.fault := rfl
@[simp] theorem leaveVector_diagMcra (s : State) : (leaveVector s).2.diagMcra = s.diagMcra := rfl
@[simp] theorem leaveVector_diagBcd (s : State) : (leaveVector s).2.diagBcd = s.diagBcd := rfl
@[simp] theorem leaveVector_cyc (s : State) : (leaveVector s).2.cyc = s.cyc := rfl
@[simp] theorem leaveVector_mem (s : State) : (leaveVector s).2.mem = s.mem := rfl
@[simp] theorem leaveVector_irq (s : State) : (leaveVector s).2.irq = s.irq := rfl
@[simp] theorem leaveVector_acks (s : State) : (leaveVector s).2.acks = s.acks := rfl

end Sys2Proof.Machine
end

