-- ==== Sys2Proof/Laws/Flags.lean ====
section
/-! SUPPORT. What each flag operation does to every bit of FLG, that each keeps the reserved bits at 0, and the numbers
behind `trunc`, `signBit` and `isZero`. -/

namespace Sys2Proof.Machine

open Sys2Proof

/-! ## Bits of FLG -/

/-- Bit `k` of FLG after one flag is set. -/
theorem setFlag_getLsbD (f : Flag) (t : Bool) (flg : BitVec 16) (k : Nat) :
    (setFlag f t flg).getLsbD k = if k = f.bit then t else flg.getLsbD k := by
  by_cases hk : k < 16
  · have h : ∀ j : Fin 16, (1#16 <<< f.bit).getLsbD j.1 = decide (j.1 = f.bit) := by cases f <;> decide
    have hj : (1#16 <<< f.bit).getLsbD k = decide (k = f.bit) := h ⟨k, hk⟩
    have hs : (setFlag f t flg).getLsbD k =
        if t then flg.getLsbD k || decide (k = f.bit) else flg.getLsbD k && !decide (k = f.bit) := by
      cases t <;> simp only [setFlag, BitVec.getLsbD_or, BitVec.getLsbD_and, BitVec.getLsbD_not, hj, hk, if_true,
        if_false, decide_true, Bool.true_and, Bool.false_eq_true]
    rw [hs]
    by_cases e : k = f.bit <;> cases t <;> simp [e]
  · have hf : k ≠ f.bit := by cases f <;> simp [Flag.bit] <;> omega
    simp only [hf, if_false]
    rw [BitVec.getLsbD_of_ge _ _ (by omega), BitVec.getLsbD_of_ge _ _ (by omega)]

/-- A flag after a flag is set. -/
theorem getFlag_setFlag (f g : Flag) (t : Bool) (flg : BitVec 16) :
    getFlag g (setFlag f t flg) = if g = f then t else getFlag g flg := by
  simp only [getFlag, setFlag_getLsbD]
  cases f <;> cases g <;> simp [Flag.bit]

/-- Bit `k` of FLG after IPL is set. -/
theorem setIpl_getLsbD (l : BitVec 3) (flg : BitVec 16) (k : Nat) :
    (setIpl l flg).getLsbD k = if 8 ≤ k ∧ k < 11 then l.getLsbD (k - 8) else flg.getLsbD k := by
  by_cases hk : k < 16
  · have h : ∀ j : Fin 16, (0xF8FF#16).getLsbD j.1 = decide (¬ (8 ≤ j.1 ∧ j.1 < 11)) := by decide
    have hj : (0xF8FF#16).getLsbD k = decide (¬ (8 ≤ k ∧ k < 11)) := h ⟨k, hk⟩
    have hl : (l.setWidth 16 <<< 8).getLsbD k = (!decide (k < 8) && l.getLsbD (k - 8)) := by
      simp [BitVec.getLsbD_shiftLeft, hk, show k - 8 < 16 by omega]
    simp only [setIpl, BitVec.getLsbD_or, BitVec.getLsbD_and, hj, hl]
    by_cases e : 8 ≤ k ∧ k < 11
    · simp [e, show ¬ k < 8 by omega]
    · by_cases e8 : k < 8
      · simp [e8, show ¬ 8 ≤ k by omega]
      · have : l.getLsbD (k - 8) = false := BitVec.getLsbD_of_ge _ _ (by omega)
        simp [e, this]
  · rw [BitVec.getLsbD_of_ge _ _ (by omega), BitVec.getLsbD_of_ge flg _ (by omega)]
    simp
    omega

/-- Bit `k` of FLG after FlagsLogic. -/
theorem flagsLogic_getLsbD (w : Width) (r : Val) (flg : BitVec 16) (k : Nat) :
    (flagsLogic w r flg).getLsbD k =
      if k = 2 then signBit w r else if k = 1 then isZero w r else flg.getLsbD k := by
  simp only [flagsLogic, setFlag_getLsbD]
  rfl

/-- Bit `k` of FLG after FlagsArith. -/
theorem flagsArith_getLsbD (tab : List (Bool × Bool)) (w : Width) (a b r : Val) (flg : BitVec 16) (k : Nat) :
    (flagsArith tab w a b r flg).getLsbD k =
      if k = 2 then signBit w r else if k = 1 then isZero w r
      else if k = 3 then (tab.getD (signIndex w a b r) (false, false)).2
      else if k = 0 then (tab.getD (signIndex w a b r) (false, false)).1 else flg.getLsbD k := by
  simp only [flagsArith, flagsLogic_getLsbD, setFlag_getLsbD]
  rfl

/-- Bit `k` of FLG after FlagsBcd. -/
theorem flagsBcd_getLsbD (w : Width) (r : Val) (c : Bool) (flg : BitVec 16) (k : Nat) :
    (flagsBcd w r c flg).getLsbD k =
      if k = 0 then c else if k = 2 then signBit w r else if k = 1 then isZero w r else flg.getLsbD k := by
  simp only [flagsBcd, flagsLogic_getLsbD, setFlag_getLsbD]
  rfl

/-- The bits that FlagsLoad keeps. -/
theorem flgMask_getLsbD (k : Nat) : flgMask.getLsbD k = decide (k < 5 ∨ (8 ≤ k ∧ k < 11)) := by
  by_cases hk : k < 16
  · have h : ∀ j : Fin 16, flgMask.getLsbD j.1 = decide (j.1 < 5 ∨ (8 ≤ j.1 ∧ j.1 < 11)) := by decide
    exact h ⟨k, hk⟩
  · rw [BitVec.getLsbD_of_ge _ _ (by omega)]
    simp
    omega

/-- Bit `k` of FLG after FlagsLoad. -/
theorem flagsLoad_getLsbD (v : BitVec 16) (k : Nat) :
    (flagsLoad v).getLsbD k = (v.getLsbD k && decide (k < 5 ∨ (8 ≤ k ∧ k < 11))) := by
  simp only [flagsLoad, BitVec.getLsbD_and, flgMask_getLsbD]

/-! ## The reserved bits of FLG -/

/-- The reserved bits of a FLG value are 0. -/
def FlgOk (flg : BitVec 16) : Prop := flg &&& flgMask = flg

theorem FlgOk_iff (flg : BitVec 16) :
    FlgOk flg ↔ ∀ k, ¬ (k < 5 ∨ (8 ≤ k ∧ k < 11)) → flg.getLsbD k = false := by
  constructor
  · intro h k hk
    have e := congrArg (fun x => x.getLsbD k) h
    simp only [BitVec.getLsbD_and, flgMask_getLsbD, hk, decide_false, Bool.and_false] at e
    exact e.symm
  · intro h
    apply BitVec.eq_of_getLsbD_eq
    intro k _
    simp only [BitVec.getLsbD_and, flgMask_getLsbD]
    by_cases hk : k < 5 ∨ (8 ≤ k ∧ k < 11)
    · simp [hk]
    · simp [hk, h k hk]

theorem flagsLoad_ok (v : BitVec 16) : FlgOk (flagsLoad v) :=
  (FlgOk_iff _).2 fun k hk => by simp [flagsLoad_getLsbD, hk]

theorem flgOk_reset : FlgOk State.reset.flg := by unfold FlgOk; decide

theorem setFlag_ok {flg : BitVec 16} (h : FlgOk flg) (f : Flag) (t : Bool) : FlgOk (setFlag f t flg) :=
  (FlgOk_iff _).2 fun k hk => by
    have hf : k ≠ f.bit := by cases f <;> simp [Flag.bit] <;> omega
    simp only [setFlag_getLsbD, hf, if_false]
    exact (FlgOk_iff _).1 h k hk

theorem setIpl_ok {flg : BitVec 16} (h : FlgOk flg) (l : BitVec 3) : FlgOk (setIpl l flg) :=
  (FlgOk_iff _).2 fun k hk => by
    have hf : ¬ (8 ≤ k ∧ k < 11) := by omega
    simp only [setIpl_getLsbD, hf, if_false]
    exact (FlgOk_iff _).1 h k hk

theorem flagsLogic_ok {flg : BitVec 16} (h : FlgOk flg) (w : Width) (r : Val) : FlgOk (flagsLogic w r flg) :=
  setFlag_ok (setFlag_ok h _ _) _ _

theorem flagsArith_ok {flg : BitVec 16} (h : FlgOk flg) (tab : List (Bool × Bool)) (w : Width) (a b r : Val) :
    FlgOk (flagsArith tab w a b r flg) :=
  flagsLogic_ok (setFlag_ok (setFlag_ok h _ _) _ _) _ _

theorem flagsBcd_ok {flg : BitVec 16} (h : FlgOk flg) (w : Width) (r : Val) (c : Bool) : FlgOk (flagsBcd w r c flg) :=
  setFlag_ok (flagsLogic_ok h _ _) _ _

theorem flagsIntEntry_ok {flg : BitVec 16} (h : FlgOk flg) (l : Option IntLevel) : FlgOk (flagsIntEntry l flg) := by
  cases l
  · exact setFlag_ok h _ _
  · exact setIpl_ok (setFlag_ok h _ _) _

/-! ## Numbers behind the carrier -/

theorem trunc_toNat (w : Width) (v : Val) : (trunc w v).toNat = v.toNat % 2 ^ w.bits := by
  cases w
  · simp [trunc, Width.bits]
    omega
  · simp [trunc, Width.bits]
    omega
  · simp [trunc, Width.bits]
    omega

theorem trunc_lt (w : Width) (v : Val) : (trunc w v).toNat < 2 ^ w.bits := by
  rw [trunc_toNat]
  exact Nat.mod_lt _ (Nat.two_pow_pos _)

theorem trunc_of_lt {w : Width} {v : Val} (h : v.toNat < 2 ^ w.bits) : trunc w v = v := by
  apply BitVec.eq_of_toNat_eq
  rw [trunc_toNat, Nat.mod_eq_of_lt h]

@[simp] theorem trunc_trunc (w : Width) (v : Val) : trunc w (trunc w v) = trunc w v := trunc_of_lt (trunc_lt w v)

/-- The sign bit of a value of its width, as a comparison. -/
theorem signBit_eq {w : Width} {v : Val} (h : v.toNat < 2 ^ w.bits) :
    signBit w v = decide (2 ^ (w.bits - 1) ≤ v.toNat) := by
  rw [signBit, BitVec.getLsbD, Nat.testBit_eq_decide_div_mod_eq, decide_eq_decide]
  cases w <;> simp only [Width.bits] at h ⊢ <;> omega

/-- The zero test of a value of its width. -/
theorem isZero_eq {w : Width} {v : Val} (h : v.toNat < 2 ^ w.bits) : isZero w v = decide (v.toNat = 0) := by
  rw [isZero, trunc_of_lt h]
  by_cases e : v = 0#32
  · simp [e]
  · have : v.toNat ≠ 0 := fun hn => e (BitVec.eq_of_toNat_eq (by simpa using hn))
    simp [e, this]

/-- `adj` on a value of its source width is the value modulo the destination width. -/
theorem adj_toNat {v : Val} {ws : Width} (h : v.toNat < 2 ^ ws.bits) (wo : Width) :
    (adj v ws wo).toNat = v.toNat % 2 ^ wo.bits := by
  rw [adj]
  split
  · rename_i hle
    rw [trunc_of_lt h, Nat.mod_eq_of_lt (Nat.lt_of_lt_of_le h (Nat.pow_le_pow_right (by decide) hle))]
  · exact trunc_toNat _ _

end Sys2Proof.Machine
end

