-- ==== Sys2Proof/Laws/Memory.lean ====
section
/-! SUPPORT. What every memory operation does (read after write, every other byte kept) and that each keeps the canonical
form. -/

namespace Sys2Proof.Machine

open Sys2Proof

/-! ## One byte -/

/-- Addresses strictly rising. -/
def Rising (l : List Host.Cell) : Prop := l.Pairwise fun x y => x.1 < y.1

theorem lookup_of_lt {l : List Host.Cell} {a : Nat} (h : ∀ c ∈ l, a < c.1) : lookup l a = Config.unlistedByte := by
  induction l with
  | nil => rfl
  | cons c t ih =>
    have h1 := h c (by simp)
    have h2 : c.1 ≠ a := by omega
    simp only [lookup, h2, if_false]
    exact ih fun d hd => h d (by simp [hd])

/-- Every entry of a changed list is the new entry or an old one. -/
theorem mem_store {l : List Host.Cell} {a : Nat} {v : Byte} {c : Host.Cell} (h : c ∈ store l a v) :
    (c = (a, v) ∧ v ≠ Config.unlistedByte) ∨ c ∈ l := by
  induction l with
  | nil =>
    by_cases hv : v = Config.unlistedByte
    · simp [store, hv] at h
    · simp [store, hv] at h
      exact .inl ⟨h, hv⟩
  | cons d t ih =>
    simp only [store] at h
    split at h
    · rcases List.mem_cons.1 h with h | h
      · exact .inr (by simp [h])
      · rcases ih h with h | h
        · exact .inl h
        · exact .inr (by simp [h])
    · by_cases hv : v = Config.unlistedByte
      · simp only [hv, if_true] at h
        split at h
        · exact .inr (by simp [h])
        · exact .inr h
      · simp only [hv, if_false] at h
        rcases List.mem_cons.1 h with h | h
        · exact .inl ⟨h, hv⟩
        · split at h
          · exact .inr (by simp [h])
          · exact .inr h

theorem store_rising {l : List Host.Cell} (h : Rising l) (a : Nat) (v : Byte) : Rising (store l a v) := by
  induction l with
  | nil =>
    simp only [store]
    split <;> simp [Rising]
  | cons d t ih =>
    have ht : Rising t := (List.pairwise_cons.1 h).2
    have hd : ∀ c ∈ t, d.1 < c.1 := (List.pairwise_cons.1 h).1
    simp only [store]
    split
    · rename_i hlt
      refine List.pairwise_cons.2 ⟨fun c hc => ?_, ih ht⟩
      rcases mem_store hc with ⟨rfl, -⟩ | hc
      · exact hlt
      · exact hd c hc
    · rename_i hge
      have hafter : Rising (if d.1 = a then t else d :: t) := by split <;> assumption
      have hlt : ∀ c ∈ (if d.1 = a then t else d :: t), a < c.1 := by
        intro c hc
        split at hc
        · have := hd c hc; omega
        · rcases List.mem_cons.1 hc with rfl | hc
          · omega
          · have := hd c hc; omega
      split
      · exact hafter
      · exact List.pairwise_cons.2 ⟨hlt, hafter⟩

/-- Read after a store of one byte, on a rising list: the stored byte at its address, the old byte elsewhere. -/
theorem lookup_store {l : List Host.Cell} (h : Rising l) (a b : Nat) (v : Byte) :
    lookup (store l a v) b = if b = a then v else lookup l b := by
  induction l with
  | nil =>
    by_cases hv : v = Config.unlistedByte
    · simp [store, lookup, hv]
    · simp only [store, lookup, hv, if_false]
      by_cases hb : b = a
      · simp [hb]
      · simp [hb, Ne.symm hb]
  | cons d t ih =>
    have ht : Rising t := (List.pairwise_cons.1 h).2
    have hd : ∀ c ∈ t, d.1 < c.1 := (List.pairwise_cons.1 h).1
    simp only [store]
    split
    · rename_i hlt
      simp only [lookup, ih ht]
      by_cases hdb : d.1 = b
      · have : b ≠ a := by omega
        simp [hdb, this]
      · simp [hdb]
    · rename_i hge
      have hlt : ∀ c ∈ (if d.1 = a then t else d :: t), a < c.1 := by
        intro c hc
        split at hc
        · have := hd c hc; omega
        · rcases List.mem_cons.1 hc with rfl | hc
          · omega
          · have := hd c hc; omega
      have hold : b ≠ a → lookup (if d.1 = a then t else d :: t) b = lookup (d :: t) b := by
        intro hb
        split
        · rename_i hda
          have : d.1 ≠ b := by omega
          simp [lookup, this]
        · rfl
      by_cases hv : v = Config.unlistedByte
      · simp only [hv, if_true]
        by_cases hb : b = a
        · simp only [hb, if_true]
          exact lookup_of_lt hlt
        · simp only [hb, if_false]
          exact hold hb
      · simp only [hv, if_false, lookup]
        by_cases hb : b = a
        · simp [hb]
        · simp only [Ne.symm hb, hb, if_false]
          exact hold hb

/-! ## The canonical form -/

/-- What the canonical form says. -/
theorem Memory.wf_iff (m : Memory) :
    m.wf = true ↔ Rising m.cells ∧ ∀ c ∈ m.cells, c.1 < 2 ^ 24 ∧ c.2 ≠ Config.unlistedByte := by
  simp [Memory.wf, Rising]

theorem Memory.wf_rising {m : Memory} (h : m.wf = true) : Rising m.cells := ((Memory.wf_iff m).1 h).1

/-- `write8` keeps the canonical form. -/
theorem write8_wf {m : Memory} (h : m.wf = true) (a : Addr) (v : BitVec 8) : (write8 m a v).wf = true := by
  obtain ⟨h1, h2⟩ := (Memory.wf_iff m).1 h
  refine (Memory.wf_iff _).2 ⟨store_rising h1 _ _, fun c hc => ?_⟩
  rcases mem_store hc with ⟨rfl, hv⟩ | hc
  · exact ⟨a.isLt, hv⟩
  · exact h2 c hc

/-- `write16` keeps the canonical form. -/
theorem write16_wf {m : Memory} (h : m.wf = true) (a : Addr) (v : BitVec 16) : (write16 m a v).wf = true :=
  write8_wf (write8_wf h _ _) _ _

/-- `write32` keeps the canonical form. -/
theorem write32_wf {m : Memory} (h : m.wf = true) (a : Addr) (v : BitVec 32) : (write32 m a v).wf = true :=
  write16_wf (write16_wf h _ _) _ _

/-- A data write of any width keeps the canonical form. -/
theorem memWrite_wf {m : Memory} (h : m.wf = true) (w : Width) (a : Addr) (v : Val) : (memWrite w m a v).wf = true := by
  cases w
  · exact write8_wf h _ _
  · exact write16_wf h _ _
  · exact write32_wf h _ _

/-- A run of bytes stored keeps the canonical form. -/
theorem storeBytes_wf {m : Memory} (h : m.wf = true) (a : Addr) (bs : List Byte) : (storeBytes m a bs).wf = true := by
  induction bs generalizing m a with
  | nil => exact h
  | cons b t ih => exact ih (write8_wf h a b) _

theorem reset_mem_wf : State.reset.mem.wf = true := by decide

/-! ## Fields of fields -/

theorem extract_hi_hi (v : BitVec 32) : (v.extractLsb' 16 16).extractLsb' 8 8 = v.extractLsb' 24 8 := by
  ext i hi; simp [show 8 + i < 16 by omega, ← Nat.add_assoc]

theorem extract_hi_lo (v : BitVec 32) : (v.extractLsb' 16 16).extractLsb' 0 8 = v.extractLsb' 16 8 := by
  ext i hi; simp [show i < 16 by omega]

theorem extract_lo_hi (v : BitVec 32) : (v.extractLsb' 0 16).extractLsb' 8 8 = v.extractLsb' 8 8 := by
  ext i hi; simp

theorem extract_lo_lo (v : BitVec 32) : (v.extractLsb' 0 16).extractLsb' 0 8 = v.extractLsb' 0 8 := by
  ext i hi; simp

/-- The two bytes of a half-word, put together again. -/
theorem halves_append (v : BitVec 16) : v.extractLsb' 8 8 ++ v.extractLsb' 0 8 = v := by
  rw [BitVec.extractLsb'_append_extractLsb'_eq_extractLsb' (by rfl)]
  simp

/-- The three bytes of a 24-bit field, put together again. -/
theorem triples_append (v : BitVec 24) : v.extractLsb' 16 8 ++ v.extractLsb' 8 8 ++ v.extractLsb' 0 8 = v := by
  rw [BitVec.extractLsb'_append_extractLsb'_eq_extractLsb' (by rfl),
    BitVec.extractLsb'_append_extractLsb'_eq_extractLsb' (by rfl)]
  simp

/-- The four bytes of a word, put together again. -/
theorem bytes_append (v : BitVec 32) :
    v.extractLsb' 24 8 ++ v.extractLsb' 16 8 ++ v.extractLsb' 8 8 ++ v.extractLsb' 0 8 = v := by
  rw [BitVec.extractLsb'_append_extractLsb'_eq_extractLsb' (by rfl),
    BitVec.extractLsb'_append_extractLsb'_eq_extractLsb' (by rfl),
    BitVec.extractLsb'_append_extractLsb'_eq_extractLsb' (by rfl)]
  simp

/-! ## Reads after writes -/

/-- One byte read after one byte written. -/
theorem read8_write8 {m : Memory} (h : m.wf = true) (a b : Addr) (v : BitVec 8) :
    read8 (write8 m a v) b = if b = a then v else read8 m b := by
  simp only [read8, write8, lookup_store (Memory.wf_rising h), BitVec.toNat_inj]

/-- One byte read after a 16-bit write. -/
theorem read8_write16 {m : Memory} (h : m.wf = true) (a b : Addr) (v : BitVec 16) :
    read8 (write16 m a v) b =
      if b = a + 1#24 then v.extractLsb' 8 8 else if b = a then v.extractLsb' 0 8 else read8 m b := by
  simp only [write16, read8_write8 (write8_wf h _ _), read8_write8 h]

/-- One byte read after a 32-bit write. -/
theorem read8_write32 {m : Memory} (h : m.wf = true) (a b : Addr) (v : BitVec 32) :
    read8 (write32 m a v) b =
      if b = a + 3#24 then v.extractLsb' 24 8 else if b = a + 2#24 then v.extractLsb' 16 8
      else if b = a + 1#24 then v.extractLsb' 8 8 else if b = a then v.extractLsb' 0 8 else read8 m b := by
  have h3 : a + 2#24 + 1#24 = a + 3#24 := by bv_omega
  simp only [write32, read8_write16 (write16_wf h _ _), read8_write16 h, h3, extract_hi_hi, extract_hi_lo,
    extract_lo_hi, extract_lo_lo]

/-- A data write changes no byte outside its span. -/
theorem read8_memWrite_other {m : Memory} (h : m.wf = true) (w : Width) (a b : Addr) (v : Val)
    (hb : b ∉ span a w.bytes) : read8 (memWrite w m a v) b = read8 m b := by
  cases w
  · simp [span, Width.bytes, List.range_succ] at hb
    simp [memWrite, read8_write8 h, hb]
  · simp [span, Width.bytes, List.range_succ] at hb
    simp [memWrite, read8_write16 h, hb]
  · simp [span, Width.bytes, List.range_succ] at hb
    simp [memWrite, read8_write32 h, hb]

/-- A data read after a data write of the same width at the same address gives the value written. -/
theorem memRead_memWrite {m : Memory} (h : m.wf = true) (w : Width) (a : Addr) (v : Val) :
    memRead w (memWrite w m a v) a = trunc w v := by
  have n1 : (a = a + 1#24) = False := by simp
  have n2 : (a = a + 2#24) = False := by simp
  have n3 : (a = a + 3#24) = False := by simp
  have m2 : (a + 1#24 = a + 2#24) = False := by simp
  have m3 : (a + 1#24 = a + 3#24) = False := by simp
  have k3 : (a + 2#24 = a + 3#24) = False := by simp
  cases w
  · simp [memWrite, memRead, read8_write8 h, trunc]
  · simp only [memWrite, memRead, read16, read8_write16 h, n1, if_true, if_false, trunc, halves_append]
  · simp only [memWrite, memRead, read32, read8_write32 h, n1, n2, n3, m2, m3, k3, if_true, if_false, trunc,
      bytes_append]

end Sys2Proof.Machine
end

