-- ==== Sys2Proof/Laws/Operands.lean ====
section
/-! SUPPORT. Register views, accessors and the resolver: what is read after a write, what a write leaves, and what each
answer of the resolver is. -/

namespace Sys2Proof.Machine

open Sys2Proof

/-! ## Register views -/

theorem View.read_lt (v : View) (s : State) : (v.read s).toNat < 2 ^ v.width.bits := by
  cases v
  case r2r0 => exact (s.r2 ++ s.r0).isLt
  case r3r1 => exact (s.r3 ++ s.r1).isLt
  case a0 => exact s.a0.isLt
  case a1 => exact s.a1.isLt
  all_goals
    simp only [View.read, View.width, Width.bits, BitVec.toNat_setWidth]
    refine Nat.lt_of_le_of_lt (Nat.mod_le _ _) (BitVec.isLt _)

/-- The low bytes of a half-word built from two bytes. -/
theorem extract_append_lo {n m : Nat} (x : BitVec n) (y : BitVec m) : (x ++ y).extractLsb' 0 m = y := by
  ext i hi
  simp [BitVec.getLsbD_append, hi]

/-- The high part of two parts put together. -/
theorem extract_append_hi {n m : Nat} (x : BitVec n) (y : BitVec m) : (x ++ y).extractLsb' m n = x := by
  ext i hi
  simp [BitVec.getLsbD_append, hi]

theorem extract_setWidth_8 (x : Val) : (x.extractLsb' 0 8).setWidth 32 = trunc .byte x := by
  ext i hi
  simp [trunc]

theorem extract_setWidth_16 (x : Val) : (x.extractLsb' 0 16).setWidth 32 = trunc .word x := by
  ext i hi
  simp [trunc]

theorem extract_halves (x : Val) : x.extractLsb' 16 16 ++ x.extractLsb' 0 16 = x := by
  rw [BitVec.extractLsb'_append_extractLsb'_eq_extractLsb' (by rfl)]
  simp

theorem View.read_write (v : View) (x : Val) (s : State) : v.read (v.write x s) = trunc v.width x := by
  cases v
  case r2r0 => exact extract_halves x
  case r3r1 => exact extract_halves x
  case a0 => rfl
  case a1 => rfl
  case r0l => exact (congrArg _ (extract_append_lo _ _)).trans (extract_setWidth_8 x)
  case r1l => exact (congrArg _ (extract_append_lo _ _)).trans (extract_setWidth_8 x)
  case r0h => exact (congrArg _ (extract_append_hi _ _)).trans (extract_setWidth_8 x)
  case r1h => exact (congrArg _ (extract_append_hi _ _)).trans (extract_setWidth_8 x)
  case a0w => exact (congrArg _ (extract_append_lo _ _)).trans (extract_setWidth_16 x)
  case a1w => exact (congrArg _ (extract_append_lo _ _)).trans (extract_setWidth_16 x)
  all_goals exact extract_setWidth_16 x

/-- A view written changes no piece of a register outside it. -/
theorem View.write_keeps (v : View) (x : Val) (s : State) : KeepsRegs v.parts s (v.write x s) := by
  intro p hp
  cases v <;> cases p <;> simp only [View.parts, List.mem_cons, List.not_mem_nil, reduceCtorEq, or_false, or_true,
    or_self, not_true_eq_false, not_false_eq_true] at hp <;> simp only [Part.read, View.write]
  · exact congrArg _ (extract_append_hi _ _)
  · exact congrArg _ (extract_append_lo _ _)
  · exact congrArg _ (extract_append_hi _ _)
  · exact congrArg _ (extract_append_lo _ _)
  · exact extract_append_hi _ _
  · exact extract_append_hi _ _

/-! ## Accessors -/

theorem memRead_lt (w : Width) (m : Memory) (a : Addr) : (memRead w m a).toNat < 2 ^ w.bits := by
  cases w
  · simp only [memRead, Width.bits, BitVec.toNat_setWidth]
    exact Nat.lt_of_le_of_lt (Nat.mod_le _ _) (BitVec.isLt _)
  · simp only [memRead, Width.bits, BitVec.toNat_setWidth]
    exact Nat.lt_of_le_of_lt (Nat.mod_le _ _) (BitVec.isLt _)
  · exact (read32 m a).isLt

theorem Acc.get_lt (y : Acc) (s : State) : (y.get s).toNat < 2 ^ y.width.bits := by
  cases y
  · exact View.read_lt _ _
  · exact memRead_lt _ _ _

/-- The value got after one was set. -/
theorem Acc.get_set {s : State} (h : s.mem.wf = true) (y : Acc) (x : Val) : y.get (y.set x s) = trunc y.width x := by
  cases y
  · exact View.read_write _ _ _
  · exact memRead_memWrite h _ _ _

theorem Acc.set_keepsRegs (y : Acc) (x : Val) (s : State) : KeepsRegs y.parts s (y.set x s) := by
  cases y
  · exact View.write_keeps _ _ _
  · intro p _
    cases p <;> rfl

theorem Acc.set_keepsMem {s : State} (h : s.mem.wf = true) (y : Acc) (x : Val) : KeepsMem y.span s (y.set x s) := by
  cases y
  · intro a _
    simp only [Acc.set, View.write_mem]
  · intro a ha
    exact read8_memWrite_other h _ _ _ _ ha

theorem Acc.set_mem_wf {s : State} (h : s.mem.wf = true) (y : Acc) (x : Val) : (y.set x s).mem.wf = true := by
  cases y
  · simpa only [Acc.set, View.write_mem] using h
  · exact memWrite_wf h _ _ _

/-- An accessor reads only the general registers and memory. -/
theorem Acc.get_congr (y : Acc) {s t : State} (hr : ∀ v : View, v.read t = v.read s) (hm : t.mem = s.mem) :
    y.get t = y.get s := by
  cases y
  · exact hr _
  · simp only [Acc.get, hm]

/-! ## The resolver -/

theorem regView_width {o : Opnd} {w : Width} {v : View} (h : regView o w = some v) : v.width = w := by
  unfold regView at h
  split at h <;> simp at h <;> subst h <;> rfl

/-- The width of a resolved operand is its nominal width after promotion. -/
theorem resolve_width {o : Opnd} {w : Width} {lm : BitVec 16} {p : Promote} {s : State} {x : Acc}
    (h : resolve o w lm p s = some x) : promoted o w p = some x.width := by
  unfold resolve at h
  split at h
  · split at h
    · simp at h
    · rename_i w' hw
      split at h
      · simp at h
        subst h
        exact hw
      · obtain ⟨v, hv, rfl⟩ := Option.map_eq_some_iff.1 h
        rw [hw, ← regView_width hv]
        rfl
  · simp at h

/-- A width of 16 or 32 bits is never promoted. -/
theorem resolve_width_of_ne {o : Opnd} {w : Width} {lm : BitVec 16} {p : Promote} {s : State} {x : Acc}
    (h : resolve o w lm p s = some x) (hw : w ≠ .byte) : x.width = w := by
  have e := resolve_width h
  cases o <;> cases w <;> cases p <;> simp_all [promoted]

/-- Where promotion is forbidden the width is the nominal one. -/
theorem resolve_width_forbid {o : Opnd} {w : Width} {lm : BitVec 16} {s : State} {x : Acc}
    (h : resolve o w lm .forbid s = some x) : x.width = w := by
  have e := resolve_width h
  cases o <;> cases w <;> simp_all [promoted]

/-- A bit operand is in a byte, and its bit number is below 8. -/
theorem resolveBit_byte {o : Opnd} {bit : BitVec 3} {s : State} {p : Acc × Nat} (h : resolveBit o bit s = some p) :
    p.1.width = .byte ∧ p.2 < 8 := by
  unfold resolveBit at h
  split at h
  · split at h
    · simp at h
      subst h
      exact ⟨rfl, Nat.mod_lt _ (by decide)⟩
    · obtain ⟨v, hv, rfl⟩ := Option.map_eq_some_iff.1 h
      exact ⟨regView_width hv, bit.isLt⟩
  · simp at h

end Sys2Proof.Machine
end

