-- ==== Sys2Proof/Laws/Shapes.lean ====
section
/-! SUPPORT. For each shape of meaning one lemma that says what it does once its operands are resolved (`_resolved`), and
one that says everything it can do (`_cases`). -/

namespace Sys2Proof.Machine

open Sys2Proof

/-- The setup of a value operand: go on with its accessor, or take the fatal entry with its mode code. -/
theorem withOpnd_cases {b0 : Byte} {w : Width} {p : Promote} {o : Opnd} {s : State} {k : Acc → Answer} {a : Answer}
    (h : withOpnd b0 w p o s k = a) :
    (∃ x, resolve o w (lmValue w) p s = some x ∧ k x = a) ∨
      (resolve o w (lmValue w) p s = none ∧ a = .next (fatalEntry (.illegalAddressingMode o.mode) b0 s)) := by
  unfold withOpnd at h
  split at h
  · exact .inl ⟨_, ‹_›, h⟩
  · exact .inr ⟨‹_›, h.symm⟩

/-- The setup of a pointer operand. -/
theorem withPtr_cases {b0 : Byte} {o : Opnd} {s : State} {k : Addr → Answer} {a : Answer} (h : withPtr b0 o s k = a) :
    (∃ ea, resolvePtr o lmPtr s = some ea ∧ k ea = a) ∨
      (resolvePtr o lmPtr s = none ∧ a = .next (fatalEntry (.illegalAddressingMode o.mode) b0 s)) := by
  unfold withPtr at h
  split at h
  · exact .inl ⟨_, ‹_›, h⟩
  · exact .inr ⟨‹_›, h.symm⟩

/-- The setup of a bit operand. -/
theorem withBit_cases {b0 : Byte} {o : Opnd} {bit : BitVec 3} {s : State} {k : Acc → Nat → Answer} {a : Answer}
    (h : withBit b0 o bit s k = a) :
    (∃ p, resolveBit o bit s = some p ∧ k p.1 p.2 = a) ∨
      (resolveBit o bit s = none ∧ a = .next (fatalEntry (.illegalAddressingMode o.mode) b0 s)) := by
  unfold withBit at h
  split at h
  · exact .inl ⟨_, ‹_›, h⟩
  · exact .inr ⟨‹_›, h.symm⟩

theorem withPtr_resolved {b0 : Byte} {o : Opnd} {s : State} {k : Addr → Answer} {ea : Addr}
    (h : resolvePtr o lmPtr s = some ea) : withPtr b0 o s k = k ea := by
  simp only [withPtr, h]

theorem withBit_resolved {b0 : Byte} {o : Opnd} {bit : BitVec 3} {s : State} {k : Acc → Nat → Answer} {p : Acc × Nat}
    (h : resolveBit o bit s = some p) : withBit b0 o bit s k = k p.1 p.2 := by
  simp only [withBit, h]

/-- `aluG2` on resolved operands. -/
theorem aluG2_resolved {b0 : Byte} {w : Width} {f : Binary} {src dst : Opnd} {s : State} {x y : Acc}
    (hx : resolve src w (lmValue w) .allow s = some x) (hy : resolve dst w (lmValue w) .allow s = some y) :
    aluG2 b0 w f src dst s =
      .next (advance (2 + src.extLen + dst.extLen) (x.calls + 2 * y.calls)
        (y.set (f y.width (y.get s) (adj (x.get s) x.width y.width) s.flg).1
          { s with flg := (f y.width (y.get s) (adj (x.get s) x.width y.width) s.flg).2 })) := by
  simp only [aluG2, withOpnd, hx, hy]

/-- Everything `aluG2` can do. -/
theorem aluG2_cases {b0 : Byte} {w : Width} {f : Binary} {src dst : Opnd} {s : State} {a : Answer} (h : aluG2 b0 w f src dst s = a) :
    (∃ x y, resolve src w (lmValue w) .allow s = some x ∧ resolve dst w (lmValue w) .allow s = some y ∧
      a = .next (advance (2 + src.extLen + dst.extLen) (x.calls + 2 * y.calls)
        (y.set (f y.width (y.get s) (adj (x.get s) x.width y.width) s.flg).1
          { s with flg := (f y.width (y.get s) (adj (x.get s) x.width y.width) s.flg).2 }))) ∨
      (a = .next (fatalEntry (.illegalAddressingMode src.mode) b0 s) ∨ a = .next (fatalEntry (.illegalAddressingMode dst.mode) b0 s)) := by
  rcases withOpnd_cases h with ⟨x, hx, h⟩ | ⟨-, h⟩
  · rcases withOpnd_cases h with ⟨y, hy, h⟩ | ⟨-, h⟩
    · exact .inl ⟨x, y, hx, hy, h.symm⟩
    · exact .inr (.inr h)
  · exact .inr (.inl h)

/-- `testG2` on resolved operands. -/
theorem testG2_resolved {b0 : Byte} {w : Width} {f : Binary} {src dst : Opnd} {s : State} {x y : Acc}
    (hx : resolve src w (lmValue w) .allow s = some x) (hy : resolve dst w (lmValue w) .allow s = some y) :
    testG2 b0 w f src dst s =
      .next (advance (2 + src.extLen + dst.extLen) (x.calls + y.calls)
        { s with flg := (f y.width (y.get s) (adj (x.get s) x.width y.width) s.flg).2 }) := by
  simp only [testG2, withOpnd, hx, hy]

/-- Everything `testG2` can do. -/
theorem testG2_cases {b0 : Byte} {w : Width} {f : Binary} {src dst : Opnd} {s : State} {a : Answer} (h : testG2 b0 w f src dst s = a) :
    (∃ x y, resolve src w (lmValue w) .allow s = some x ∧ resolve dst w (lmValue w) .allow s = some y ∧
      a = .next (advance (2 + src.extLen + dst.extLen) (x.calls + y.calls)
        { s with flg := (f y.width (y.get s) (adj (x.get s) x.width y.width) s.flg).2 })) ∨
      (a = .next (fatalEntry (.illegalAddressingMode src.mode) b0 s) ∨ a = .next (fatalEntry (.illegalAddressingMode dst.mode) b0 s)) := by
  rcases withOpnd_cases h with ⟨x, hx, h⟩ | ⟨-, h⟩
  · rcases withOpnd_cases h with ⟨y, hy, h⟩ | ⟨-, h⟩
    · exact .inl ⟨x, y, hx, hy, h.symm⟩
    · exact .inr (.inr h)
  · exact .inr (.inl h)

/-- `moveG2` on resolved operands. -/
theorem moveG2_resolved {b0 : Byte} {w : Width} {src dst : Opnd} {s : State} {x y : Acc}
    (hx : resolve src w (lmValue w) .allow s = some x) (hy : resolve dst w (lmValue w) .allow s = some y) :
    moveG2 b0 w src dst s =
      .next (advance (2 + src.extLen + dst.extLen) (x.calls + y.calls)
        (y.set (adj (x.get s) x.width y.width)
          { s with flg := flagsLogic y.width (adj (x.get s) x.width y.width) s.flg })) := by
  simp only [moveG2, withOpnd, hx, hy]

/-- Everything `moveG2` can do. -/
theorem moveG2_cases {b0 : Byte} {w : Width} {src dst : Opnd} {s : State} {a : Answer} (h : moveG2 b0 w src dst s = a) :
    (∃ x y, resolve src w (lmValue w) .allow s = some x ∧ resolve dst w (lmValue w) .allow s = some y ∧
      a = .next (advance (2 + src.extLen + dst.extLen) (x.calls + y.calls)
        (y.set (adj (x.get s) x.width y.width)
          { s with flg := flagsLogic y.width (adj (x.get s) x.width y.width) s.flg }))) ∨
      (a = .next (fatalEntry (.illegalAddressingMode src.mode) b0 s) ∨ a = .next (fatalEntry (.illegalAddressingMode dst.mode) b0 s)) := by
  rcases withOpnd_cases h with ⟨x, hx, h⟩ | ⟨-, h⟩
  · rcases withOpnd_cases h with ⟨y, hy, h⟩ | ⟨-, h⟩
    · exact .inl ⟨x, y, hx, hy, h.symm⟩
    · exact .inr (.inr h)
  · exact .inr (.inl h)

/-- `extendG2` on resolved operands. -/
theorem extendG2_resolved {b0 : Byte} {ws wd : Width} {ext : Width → Val → Val} {src dst : Opnd} {s : State} {x y : Acc}
    (hx : resolve src ws (lmValue ws) .forbid s = some x) (hy : resolve dst wd (lmValue wd) .allow s = some y) :
    extendG2 b0 ws wd ext src dst s =
      .next (advance (2 + src.extLen + dst.extLen) (x.calls + y.calls)
        (y.set (trunc wd (ext ws (x.get s))) { s with flg := flagsLogic wd (trunc wd (ext ws (x.get s))) s.flg })) := by
  simp only [extendG2, withOpnd, hx, hy]

/-- Everything `extendG2` can do. -/
theorem extendG2_cases {b0 : Byte} {ws wd : Width} {ext : Width → Val → Val} {src dst : Opnd} {s : State} {a : Answer} (h : extendG2 b0 ws wd ext src dst s = a) :
    (∃ x y, resolve src ws (lmValue ws) .forbid s = some x ∧ resolve dst wd (lmValue wd) .allow s = some y ∧
      a = .next (advance (2 + src.extLen + dst.extLen) (x.calls + y.calls)
        (y.set (trunc wd (ext ws (x.get s))) { s with flg := flagsLogic wd (trunc wd (ext ws (x.get s))) s.flg }))) ∨
      (a = .next (fatalEntry (.illegalAddressingMode src.mode) b0 s) ∨ a = .next (fatalEntry (.illegalAddressingMode dst.mode) b0 s)) := by
  rcases withOpnd_cases h with ⟨x, hx, h⟩ | ⟨-, h⟩
  · rcases withOpnd_cases h with ⟨y, hy, h⟩ | ⟨-, h⟩
    · exact .inl ⟨x, y, hx, hy, h.symm⟩
    · exact .inr (.inr h)
  · exact .inr (.inl h)

/-- `decimalG2` on resolved operands. -/
theorem decimalG2_resolved {b0 : Byte} {w : Width} {op : DecimalOp} {src dst : Opnd} {s : State} {x y : Acc}
    (hx : resolve src w (lmValue w) .forbid s = some x) (hy : resolve dst w (lmValue w) .forbid s = some y) :
    decimalG2 b0 w op src dst s =
      .next (advance (2 + src.extLen + dst.extLen) (x.calls + 2 * y.calls)
        (y.set (decimalOp op w (y.get s) (x.get s)).1
          { s with
            flg := flagsBcd w (decimalOp op w (y.get s) (x.get s)).1 (decimalOp op w (y.get s) (x.get s)).2 s.flg
            diagBcd := s.diagBcd || !bcdValid w (y.get s) (x.get s) })) := by
  simp only [decimalG2, withOpnd, hx, hy]

/-- Everything `decimalG2` can do. -/
theorem decimalG2_cases {b0 : Byte} {w : Width} {op : DecimalOp} {src dst : Opnd} {s : State} {a : Answer} (h : decimalG2 b0 w op src dst s = a) :
    (∃ x y, resolve src w (lmValue w) .forbid s = some x ∧ resolve dst w (lmValue w) .forbid s = some y ∧
      a = .next (advance (2 + src.extLen + dst.extLen) (x.calls + 2 * y.calls)
        (y.set (decimalOp op w (y.get s) (x.get s)).1
          { s with
            flg := flagsBcd w (decimalOp op w (y.get s) (x.get s)).1 (decimalOp op w (y.get s) (x.get s)).2 s.flg
            diagBcd := s.diagBcd || !bcdValid w (y.get s) (x.get s) }))) ∨
      (a = .next (fatalEntry (.illegalAddressingMode src.mode) b0 s) ∨ a = .next (fatalEntry (.illegalAddressingMode dst.mode) b0 s)) := by
  rcases withOpnd_cases h with ⟨x, hx, h⟩ | ⟨-, h⟩
  · rcases withOpnd_cases h with ⟨y, hy, h⟩ | ⟨-, h⟩
    · exact .inl ⟨x, y, hx, hy, h.symm⟩
    · exact .inr (.inr h)
  · exact .inr (.inl h)

/-- `aluImm` on resolved operands. -/
theorem aluImm_resolved {b0 : Byte} {w : Width} {f : Binary} {dst : Opnd} {imm : Val} {s : State} {y : Acc}
    (hy : resolve dst w (lmValue w) .allow s = some y) :
    aluImm b0 w f dst imm s =
      .next (advance (2 + dst.extLen + w.bytes) (2 * y.calls)
        (y.set (f y.width (y.get s) (adj imm w y.width) s.flg).1
          { s with flg := (f y.width (y.get s) (adj imm w y.width) s.flg).2 })) := by
  simp only [aluImm, withOpnd, hy]

/-- Everything `aluImm` can do. -/
theorem aluImm_cases {b0 : Byte} {w : Width} {f : Binary} {dst : Opnd} {imm : Val} {s : State} {a : Answer} (h : aluImm b0 w f dst imm s = a) :
    (∃ y, resolve dst w (lmValue w) .allow s = some y ∧
      a = .next (advance (2 + dst.extLen + w.bytes) (2 * y.calls)
        (y.set (f y.width (y.get s) (adj imm w y.width) s.flg).1
          { s with flg := (f y.width (y.get s) (adj imm w y.width) s.flg).2 }))) ∨
      (a = .next (fatalEntry (.illegalAddressingMode dst.mode) b0 s)) := by
  rcases withOpnd_cases h with ⟨y, hy, h⟩ | ⟨-, h⟩
  · exact .inl ⟨y, hy, h.symm⟩
  · exact .inr h

/-- `testImm` on resolved operands. -/
theorem testImm_resolved {b0 : Byte} {w : Width} {f : Binary} {dst : Opnd} {imm : Val} {s : State} {y : Acc}
    (hy : resolve dst w (lmValue w) .allow s = some y) :
    testImm b0 w f dst imm s =
      .next (advance (2 + dst.extLen + w.bytes) y.calls
        { s with flg := (f y.width (y.get s) (adj imm w y.width) s.flg).2 }) := by
  simp only [testImm, withOpnd, hy]

/-- Everything `testImm` can do. -/
theorem testImm_cases {b0 : Byte} {w : Width} {f : Binary} {dst : Opnd} {imm : Val} {s : State} {a : Answer} (h : testImm b0 w f dst imm s = a) :
    (∃ y, resolve dst w (lmValue w) .allow s = some y ∧
      a = .next (advance (2 + dst.extLen + w.bytes) y.calls
        { s with flg := (f y.width (y.get s) (adj imm w y.width) s.flg).2 })) ∨
      (a = .next (fatalEntry (.illegalAddressingMode dst.mode) b0 s)) := by
  rcases withOpnd_cases h with ⟨y, hy, h⟩ | ⟨-, h⟩
  · exact .inl ⟨y, hy, h.symm⟩
  · exact .inr h

/-- `moveImm` on resolved operands. -/
theorem moveImm_resolved {b0 : Byte} {w : Width} {dst : Opnd} {imm : Val} {s : State} {y : Acc}
    (hy : resolve dst w (lmValue w) .allow s = some y) :
    moveImm b0 w dst imm s =
      .next (advance (2 + dst.extLen + w.bytes) y.calls
        (y.set (adj imm w y.width) { s with flg := flagsLogic y.width (adj imm w y.width) s.flg })) := by
  simp only [moveImm, withOpnd, hy]

/-- Everything `moveImm` can do. -/
theorem moveImm_cases {b0 : Byte} {w : Width} {dst : Opnd} {imm : Val} {s : State} {a : Answer} (h : moveImm b0 w dst imm s = a) :
    (∃ y, resolve dst w (lmValue w) .allow s = some y ∧
      a = .next (advance (2 + dst.extLen + w.bytes) y.calls
        (y.set (adj imm w y.width) { s with flg := flagsLogic y.width (adj imm w y.width) s.flg }))) ∨
      (a = .next (fatalEntry (.illegalAddressingMode dst.mode) b0 s)) := by
  rcases withOpnd_cases h with ⟨y, hy, h⟩ | ⟨-, h⟩
  · exact .inl ⟨y, hy, h.symm⟩
  · exact .inr h

/-- `aluOne` on resolved operands. -/
theorem aluOne_resolved {b0 : Byte} {w : Width} {p : Promote} {f : Unary} {dst : Opnd} {s : State} {y : Acc}
    (hy : resolve dst w (lmValue w) p s = some y) :
    aluOne b0 w p f dst s =
      .next (advance (2 + dst.extLen) (2 * y.calls)
        (y.set (f y.width (y.get s) s.flg).1 { s with flg := (f y.width (y.get s) s.flg).2 })) := by
  simp only [aluOne, withOpnd, hy]

/-- Everything `aluOne` can do. -/
theorem aluOne_cases {b0 : Byte} {w : Width} {p : Promote} {f : Unary} {dst : Opnd} {s : State} {a : Answer} (h : aluOne b0 w p f dst s = a) :
    (∃ y, resolve dst w (lmValue w) p s = some y ∧
      a = .next (advance (2 + dst.extLen) (2 * y.calls)
        (y.set (f y.width (y.get s) s.flg).1 { s with flg := (f y.width (y.get s) s.flg).2 }))) ∨
      (a = .next (fatalEntry (.illegalAddressingMode dst.mode) b0 s)) := by
  rcases withOpnd_cases h with ⟨y, hy, h⟩ | ⟨-, h⟩
  · exact .inl ⟨y, hy, h.symm⟩
  · exact .inr h

/-- `readOne` on resolved operands. -/
theorem readOne_resolved {b0 : Byte} {w : Width} {src : Opnd} {nacc : Nat} {f : Val → State → State} {s : State} {x : Acc}
    (hx : resolve src w (lmValue w) .forbid s = some x) :
    readOne b0 w src nacc f s =
      .next (advance (2 + src.extLen) (x.calls + nacc) (f (x.get s) s)) := by
  simp only [readOne, withOpnd, hx]

/-- Everything `readOne` can do. -/
theorem readOne_cases {b0 : Byte} {w : Width} {src : Opnd} {nacc : Nat} {f : Val → State → State} {s : State} {a : Answer} (h : readOne b0 w src nacc f s = a) :
    (∃ x, resolve src w (lmValue w) .forbid s = some x ∧
      a = .next (advance (2 + src.extLen) (x.calls + nacc) (f (x.get s) s))) ∨
      (a = .next (fatalEntry (.illegalAddressingMode src.mode) b0 s)) := by
  rcases withOpnd_cases h with ⟨x, hx, h⟩ | ⟨-, h⟩
  · exact .inl ⟨x, hx, h.symm⟩
  · exact .inr h

/-- `writeOne` on resolved operands. -/
theorem writeOne_resolved {b0 : Byte} {w : Width} {dst : Opnd} {nacc : Nat} {v : Val} {s1 s : State} {y : Acc}
    (hy : resolve dst w (lmValue w) .forbid s = some y) :
    writeOne b0 w dst nacc v s1 s =
      .next (advance (2 + dst.extLen) (y.calls + nacc) (y.set v s1)) := by
  simp only [writeOne, withOpnd, hy]

/-- Everything `writeOne` can do. -/
theorem writeOne_cases {b0 : Byte} {w : Width} {dst : Opnd} {nacc : Nat} {v : Val} {s1 s : State} {a : Answer} (h : writeOne b0 w dst nacc v s1 s = a) :
    (∃ y, resolve dst w (lmValue w) .forbid s = some y ∧
      a = .next (advance (2 + dst.extLen) (y.calls + nacc) (y.set v s1))) ∨
      (a = .next (fatalEntry (.illegalAddressingMode dst.mode) b0 s)) := by
  rcases withOpnd_cases h with ⟨y, hy, h⟩ | ⟨-, h⟩
  · exact .inl ⟨y, hy, h.symm⟩
  · exact .inr h

/-- `prefixOne` on resolved operands. -/
theorem prefixOne_resolved {b0 : Byte} {w : Width} {scale : BitVec 24} {kind : StickyKind} {src : Opnd} {s : State} {x : Acc}
    (hx : resolve src w (lmValue w) .allow s = some x) :
    prefixOne b0 w scale kind src s =
      .next (advanceArmed ((x.get s).setWidth 24 * scale) kind (2 + src.extLen) x.calls s) := by
  simp only [prefixOne, withOpnd, hx]

/-- Everything `prefixOne` can do. -/
theorem prefixOne_cases {b0 : Byte} {w : Width} {scale : BitVec 24} {kind : StickyKind} {src : Opnd} {s : State} {a : Answer} (h : prefixOne b0 w scale kind src s = a) :
    (∃ x, resolve src w (lmValue w) .allow s = some x ∧
      a = .next (advanceArmed ((x.get s).setWidth 24 * scale) kind (2 + src.extLen) x.calls s)) ∨
      (a = .next (fatalEntry (.illegalAddressingMode src.mode) b0 s)) := by
  rcases withOpnd_cases h with ⟨x, hx, h⟩ | ⟨-, h⟩
  · exact .inl ⟨x, hx, h.symm⟩
  · exact .inr h

/-- `bitWrite` on a resolved operand. -/
theorem bitWrite_resolved {b0 : Byte} {bit : BitVec 3} {f : Val → Nat → Val} {dst : Opnd} {s : State} {p : Acc × Nat}
    (h : resolveBit dst bit s = some p) :
    bitWrite b0 bit f dst s =
      .next (advance (2 + dst.extLen) (2 * p.1.calls) (p.1.set (f (p.1.get s) p.2) s)) := by
  simp only [bitWrite, withBit, h]

/-- Everything `bitWrite` can do. -/
theorem bitWrite_cases {b0 : Byte} {bit : BitVec 3} {f : Val → Nat → Val} {dst : Opnd} {s : State} {a : Answer}
    (h : bitWrite b0 bit f dst s = a) :
    (∃ p, resolveBit dst bit s = some p ∧
      a = .next (advance (2 + dst.extLen) (2 * p.1.calls) (p.1.set (f (p.1.get s) p.2) s))) ∨
      a = .next (fatalEntry (.illegalAddressingMode dst.mode) b0 s) := by
  rcases withBit_cases h with ⟨p, hp, h⟩ | ⟨-, h⟩
  · exact .inl ⟨p, hp, h.symm⟩
  · exact .inr h

/-! ## The stack, the vectors and the boundary -/

/-- The bytes a push stores to. -/
theorem push_keepsMem {s : State} (h : s.mem.wf = true) (w : Width) (v : Val) :
    KeepsMem (span (lowAddr (pushedSp w s)) w.bytes) s (push w v s) :=
  fun _ ha => read8_memWrite_other h _ _ _ _ ha

theorem push_mem_wf {s : State} (h : s.mem.wf = true) (w : Width) (v : Val) : (push w v s).mem.wf = true :=
  memWrite_wf h _ _ _

/-- What is popped right after a push is the value pushed, and SP is back. -/
theorem popValue_push {s : State} (h : s.mem.wf = true) (w : Width) (v : Val) : popValue w (push w v s) = trunc w v :=
  memRead_memWrite h _ _ _

theorem popState_push_sp (w : Width) (v : Val) (s : State) : (popState w (push w v s)).sp = s.sp := by
  simp [pushedSp]

theorem enterVector_mem_wf {s : State} (h : s.mem.wf = true) (l : Option IntLevel) (ret : Addr) (v : BitVec 8) :
    (enterVector l ret v s).mem.wf = true := by
  unfold enterVector
  exact push_mem_wf (push_mem_wf h _ _) _ _

/-- Everything the boundary check can do. -/
theorem boundary_cases (s : State) :
    (s.inhibit = true ∧ boundary s = { s with inhibit := false }) ∨
      (s.inhibit = false ∧ boundary s = { s with irq := s.irq.tail }) ∨
      (s.inhibit = false ∧ ∃ r, nextSample s = some r ∧ accepts r s.flg = true ∧
        boundary s = interruptEntry r { s with irq := s.irq.tail }) := by
  unfold boundary
  split
  · exact .inl ⟨‹_›, rfl⟩
  · rename_i hi
    have hi : s.inhibit = false := by simpa using hi
    split
    · rename_i r hr
      split
      · exact .inr (.inr ⟨hi, r, hr, ‹_›, rfl⟩)
      · exact .inr (.inl ⟨hi, rfl⟩)
    · exact .inr (.inl ⟨hi, rfl⟩)

end Sys2Proof.Machine
end

