-- ==== Sys2Proof/Laws/Entry.lean ====
section
/-! SUPPORT. What an interrupt entry or INT leaves on the stack, and where it takes PC. -/

namespace Sys2Proof.Machine

open Sys2Proof

/-- The stack after FLG and a return address are pushed: SP, the two items, and every byte outside the six. -/
theorem pushes_of_entry {s : State} (h : s.mem.wf = true) (f a : Val) :
    (push .long a (push .word f s)).sp = s.sp - 6#32 ∧
    read32 (push .long a (push .word f s)).mem (lowAddr (s.sp - 6#32)) = a ∧
    read16 (push .long a (push .word f s)).mem (lowAddr (s.sp - 2#32)) = f.setWidth 16 ∧
    ∀ b, b ∉ span (lowAddr (s.sp - 6#32)) 6 → read8 (push .long a (push .word f s)).mem b = read8 s.mem b := by
  have h1 := push_mem_wf h .word f
  have e : (push .word f s).sp - 4#32 = s.sp - 6#32 := by
    simp only [push, pushedSp, Width.bytes]
    bv_omega
  have lo : lowAddr (s.sp - 2#32) = lowAddr (s.sp - 6#32) + 4#24 := by
    simp only [lowAddr]
    bv_omega
  have lo2 : lowAddr (pushedSp .long (push .word f s)) = lowAddr (s.sp - 6#32) := by
    rw [← e]
    rfl
  have lo3 : lowAddr (pushedSp .word s) = lowAddr (s.sp - 6#32) + 4#24 := by
    rw [← lo]
    rfl
  refine ⟨e, ?_, ?_, fun b hb => ?_⟩
  · rw [← e]
    exact popValue_push h1 .long a
  · rw [lo]
    generalize lowAddr (s.sp - 6#32) = z at *
    show read16 (memWrite .long (memWrite .word s.mem (lowAddr (pushedSp .word s)) f)
      (lowAddr (pushedSp .long (push .word f s))) a) _ = _
    rw [lo2, lo3]
    simp only [memWrite, read16]
    have w1 := write16_wf h (z + 4#24) (f.setWidth 16)
    have n1 : ¬ z + 4#24 + 1#24 = z + 3#24 := by bv_omega
    have n2 : ¬ z + 4#24 + 1#24 = z + 2#24 := by bv_omega
    have n3 : ¬ z + 4#24 + 1#24 = z + 1#24 := by bv_omega
    have n4 : ¬ z + 4#24 + 1#24 = z := by bv_omega
    have n5 : ¬ z + 4#24 = z + 4#24 + 1#24 := by bv_omega
    have n6 : ¬ z + 4#24 = z + 3#24 := by bv_omega
    have n7 : ¬ z + 4#24 = z + 2#24 := by bv_omega
    have n8 : ¬ z + 4#24 = z + 1#24 := by bv_omega
    have n9 : ¬ z + 4#24 = z := by bv_omega
    rw [read8_write32 w1, read8_write32 w1, read8_write16 h, read8_write16 h]
    simp only [n1, n2, n3, n4, n5, n6, n7, n8, n9, if_false, if_true]
    exact halves_append _
  · simp only [span, List.range_succ, List.range_zero, List.nil_append, List.cons_append, List.map_cons, List.map_nil,
      List.mem_cons, List.not_mem_nil, or_false, not_or] at hb
    have A : b ∉ span (lowAddr (pushedSp .long (push .word f s))) Width.long.bytes := by
      rw [lo2]
      simp [span, List.range_succ, Width.bytes, hb]
      simpa using hb.1
    have B : b ∉ span (lowAddr (pushedSp .word s)) Width.word.bytes := by
      rw [lo3]
      simp [span, List.range_succ, Width.bytes]
      refine ⟨hb.2.2.2.2.1, fun h5 => hb.2.2.2.2.2 ?_⟩
      rw [h5]
      bv_omega
    rw [push_keepsMem h1 .long a b A, push_keepsMem h .word f b B]

/-- The address of a vector, as a sum modulo `2^24`. -/
theorem vectorAddr_eq (v : BitVec 8) (s : State) :
    vectorAddr v s = BitVec.ofNat 24 (s.intb.toNat + 4 * v.toNat) := by
  apply BitVec.eq_of_toNat_eq
  simp [vectorAddr, lowAddr]

end Sys2Proof.Machine
end

