-- ==== Sys2Proof/Laws/Step.lean ====
section
/-! SUPPORT. Everything a step can do, and the facts about the decoder that a step rests on. -/

namespace Sys2Proof.Machine

open Sys2Proof

/-- Everything a step can do. -/
theorem step_cases (s : State) :
    (s.halted = true ∧ step s = .next s) ∨
      (s.halted = false ∧
        ((∃ i rest, decode (fetchWindow s) = .ok i rest ∧ step s = afterExec (exec i s)) ∨
          (∃ b0, (decode (fetchWindow s) = .noDescriptor b0 ∨ decode (fetchWindow s) = .reservedField b0) ∧
            step s = .next (fatalEntry .illegalOpcode b0 s)) ∨
          (decode (fetchWindow s) = .truncated ∧ step s = .fault .fetchWindowTooShort))) := by
  unfold step
  by_cases h : s.halted = true
  · simp [h]
  · have h : s.halted = false := by simpa using h
    refine .inr ⟨h, ?_⟩
    simp only [h, Bool.false_eq_true, if_false]
    split
    · exact .inl ⟨_, _, ‹_›, rfl⟩
    · exact .inr (.inl ⟨_, .inl ‹_›, rfl⟩)
    · exact .inr (.inl ⟨_, .inr ‹_›, rfl⟩)
    · exact .inr (.inr ⟨‹_›, rfl⟩)

/-- What a dispatch returns is read from the step: `halted` from a halted engine, else `ok` or the recorded kind. -/
theorem dispatch_of_step {s t : State} (h : step s = .next t) : dispatch s = .next (t, returned s t) := by
  simp [dispatch, h]

@[simp] theorem returned_of_halted {s : State} (h : s.halted = true) (t : State) : returned s t = .halted := by
  simp [returned, h]

@[simp] theorem returned_of_running {s t : State} (h : s.halted = false) (h' : t.halted = false) : returned s t = .ok := by
  simp [returned, h, h']

@[simp] theorem returned_of_fatal {s : State} (h : s.halted = false) (k : FatalKind) (b0 : Byte) :
    returned s (fatalEntry k b0 s) = .fault k := by
  simp [returned, fatalEntry, h]

theorem fetchWindow_length (s : State) : (fetchWindow s).length = 9 := by
  simp [fetchWindow, span, maxLength]

/-- A nine-byte window starts with the byte at PC. -/
theorem fetchWindow_head (s : State) : ∃ t, fetchWindow s = read8 s.mem s.pc :: t ∧ t.length = 8 := by
  refine ⟨((List.range 8).map fun k => s.pc + BitVec.ofNat 24 (k + 1)).map (read8 s.mem), ?_, by simp⟩
  simp [fetchWindow, span, maxLength, List.range_succ]

/-- An operand takes as many bytes from the stream as it has extension bytes. -/
theorem takeOpnd_length {m : BitVec 4} {bs : List Byte} {p : Opnd × List Byte} (h : takeOpnd m bs = some p) :
    p.2.length + p.1.extLen = bs.length := by
  unfold takeOpnd at h
  split at h
  all_goals
    first
    | (simp at h; subst h; rfl)
    | (obtain ⟨q, hq, rfl⟩ := Option.map_eq_some_iff.1 h
       match bs, hq with
       | _ :: _, hq => simp [takeByte] at hq; subst hq; simp [Opnd.extLen])
    | (obtain ⟨q, hq, rfl⟩ := Option.map_eq_some_iff.1 h
       match bs, hq with
       | _ :: _ :: _, hq => simp [takeHalf] at hq; subst hq; simp [Opnd.extLen])
    | (obtain ⟨q, hq, rfl⟩ := Option.map_eq_some_iff.1 h
       match bs, hq with
       | _ :: _ :: _ :: _, hq => simp [takeTriple] at hq; subst hq; simp [Opnd.extLen])

/-- An operand has at most three extension bytes. -/
theorem extLen_le (o : Opnd) : o.extLen ≤ 3 := by cases o <;> simp [Opnd.extLen]

/-- `extLen` counts the extension bytes. -/
@[simp] theorem ext_length (o : Opnd) : o.ext.length = o.extLen := by
  cases o <;> rfl

/-- Three bytes are enough for any operand. -/
theorem takeOpnd_isSome {m : BitVec 4} {bs : List Byte} (h : 3 ≤ bs.length) : ∃ p, takeOpnd m bs = some p := by
  match bs, h with
  | a :: b :: c :: t, _ =>
    unfold takeOpnd
    split <;> exact ⟨_, rfl⟩

end Sys2Proof.Machine
end

