-- ==== Sys2Proof/Laws/PerInstr.lean ====
section
/-! SUPPORT. The family LengthMatches: the length of every encoding (30_encoding.md R100, R125), one lemma for each
constructor of Instr. -/

namespace Sys2Proof.Laws

open Sys2Proof Sys2Proof.Machine

/-- An encoding has one to nine bytes, and more bytes than its operands have extension bytes. -/
def LengthMatches.Statement (i : Instr) : Prop :=
  1 ≤ (encode i).length ∧ (encode i).length ≤ maxLength ∧
    (i.operands.map fun p => p.2.extLen).sum < (encode i).length

/-- The bounds of an encoding that has `fixed` bytes besides the extension bytes of one operand. -/
theorem one_bounds {n fixed : Nat} {o : Opnd} (h : n = fixed + o.extLen) (hf : 1 ≤ fixed) (hm : fixed ≤ 6) :
    1 ≤ n ∧ n ≤ maxLength ∧ [o.extLen].sum < n := by
  have := extLen_le o
  simp only [List.sum_cons, List.sum_nil, maxLength]
  omega

/-- The bounds of an encoding that has two bytes besides the extension bytes of two operands. -/
theorem two_bounds {n : Nat} {a b : Opnd} (h : n = 2 + a.extLen + b.extLen) :
    1 ≤ n ∧ n ≤ maxLength ∧ [a.extLen, b.extLen].sum < n := by
  have := extLen_le a
  have := extLen_le b
  simp only [List.sum_cons, List.sum_nil, maxLength]
  omega

theorem encG2_length (b0 : Byte) (a b : Opnd) : (encG2 b0 a b).length = 2 + a.extLen + b.extLen := by
  simp only [encG2, List.length_cons, List.length_append, ext_length]
  omega

theorem encOne_length (b0 : Byte) (f : BitVec 4) (o : Opnd) : (encOne b0 f o).length = 2 + o.extLen := by
  simp only [encOne, List.length_cons, ext_length]
  omega

theorem encImm_length (b0 : Byte) (o : Opnd) (imm : List Byte) :
    (encImm b0 o imm).length = 2 + imm.length + o.extLen := by
  simp only [encImm, List.length_cons, List.length_append, ext_length]
  omega

theorem LengthMatches.nop : LengthMatches.Statement .nop :=
  ⟨by decide, by decide, by decide⟩

theorem LengthMatches.movB (src : Opnd) (dst : Opnd) : LengthMatches.Statement (.movB src dst) :=
  two_bounds (encG2_length _ _ _)

theorem LengthMatches.movW (src : Opnd) (dst : Opnd) : LengthMatches.Statement (.movW src dst) :=
  two_bounds (encG2_length _ _ _)

theorem LengthMatches.movL (src : Opnd) (dst : Opnd) : LengthMatches.Statement (.movL src dst) :=
  two_bounds (encG2_length _ _ _)

theorem LengthMatches.addB (src : Opnd) (dst : Opnd) : LengthMatches.Statement (.addB src dst) :=
  two_bounds (encG2_length _ _ _)

theorem LengthMatches.addW (src : Opnd) (dst : Opnd) : LengthMatches.Statement (.addW src dst) :=
  two_bounds (encG2_length _ _ _)

theorem LengthMatches.addL (src : Opnd) (dst : Opnd) : LengthMatches.Statement (.addL src dst) :=
  two_bounds (encG2_length _ _ _)

theorem LengthMatches.adcB (src : Opnd) (dst : Opnd) : LengthMatches.Statement (.adcB src dst) :=
  two_bounds (encG2_length _ _ _)

theorem LengthMatches.adcW (src : Opnd) (dst : Opnd) : LengthMatches.Statement (.adcW src dst) :=
  two_bounds (encG2_length _ _ _)

theorem LengthMatches.adcL (src : Opnd) (dst : Opnd) : LengthMatches.Statement (.adcL src dst) :=
  two_bounds (encG2_length _ _ _)

theorem LengthMatches.subB (src : Opnd) (dst : Opnd) : LengthMatches.Statement (.subB src dst) :=
  two_bounds (encG2_length _ _ _)

theorem LengthMatches.subW (src : Opnd) (dst : Opnd) : LengthMatches.Statement (.subW src dst) :=
  two_bounds (encG2_length _ _ _)

theorem LengthMatches.subL (src : Opnd) (dst : Opnd) : LengthMatches.Statement (.subL src dst) :=
  two_bounds (encG2_length _ _ _)

theorem LengthMatches.sbbB (src : Opnd) (dst : Opnd) : LengthMatches.Statement (.sbbB src dst) :=
  two_bounds (encG2_length _ _ _)

theorem LengthMatches.sbbW (src : Opnd) (dst : Opnd) : LengthMatches.Statement (.sbbW src dst) :=
  two_bounds (encG2_length _ _ _)

theorem LengthMatches.sbbL (src : Opnd) (dst : Opnd) : LengthMatches.Statement (.sbbL src dst) :=
  two_bounds (encG2_length _ _ _)

theorem LengthMatches.cmpB (src : Opnd) (dst : Opnd) : LengthMatches.Statement (.cmpB src dst) :=
  two_bounds (encG2_length _ _ _)

theorem LengthMatches.cmpW (src : Opnd) (dst : Opnd) : LengthMatches.Statement (.cmpW src dst) :=
  two_bounds (encG2_length _ _ _)

theorem LengthMatches.cmpL (src : Opnd) (dst : Opnd) : LengthMatches.Statement (.cmpL src dst) :=
  two_bounds (encG2_length _ _ _)

theorem LengthMatches.andB (src : Opnd) (dst : Opnd) : LengthMatches.Statement (.andB src dst) :=
  two_bounds (encG2_length _ _ _)

theorem LengthMatches.andW (src : Opnd) (dst : Opnd) : LengthMatches.Statement (.andW src dst) :=
  two_bounds (encG2_length _ _ _)

theorem LengthMatches.andL (src : Opnd) (dst : Opnd) : LengthMatches.Statement (.andL src dst) :=
  two_bounds (encG2_length _ _ _)

theorem LengthMatches.orB (src : Opnd) (dst : Opnd) : LengthMatches.Statement (.orB src dst) :=
  two_bounds (encG2_length _ _ _)

theorem LengthMatches.orW (src : Opnd) (dst : Opnd) : LengthMatches.Statement (.orW src dst) :=
  two_bounds (encG2_length _ _ _)

theorem LengthMatches.orL (src : Opnd) (dst : Opnd) : LengthMatches.Statement (.orL src dst) :=
  two_bounds (encG2_length _ _ _)

theorem LengthMatches.xorB (src : Opnd) (dst : Opnd) : LengthMatches.Statement (.xorB src dst) :=
  two_bounds (encG2_length _ _ _)

theorem LengthMatches.xorW (src : Opnd) (dst : Opnd) : LengthMatches.Statement (.xorW src dst) :=
  two_bounds (encG2_length _ _ _)

theorem LengthMatches.xorL (src : Opnd) (dst : Opnd) : LengthMatches.Statement (.xorL src dst) :=
  two_bounds (encG2_length _ _ _)

theorem LengthMatches.tstB (src : Opnd) (dst : Opnd) : LengthMatches.Statement (.tstB src dst) :=
  two_bounds (encG2_length _ _ _)

theorem LengthMatches.tstW (src : Opnd) (dst : Opnd) : LengthMatches.Statement (.tstW src dst) :=
  two_bounds (encG2_length _ _ _)

theorem LengthMatches.tstL (src : Opnd) (dst : Opnd) : LengthMatches.Statement (.tstL src dst) :=
  two_bounds (encG2_length _ _ _)

theorem LengthMatches.daddB (src : Opnd) (dst : Opnd) : LengthMatches.Statement (.daddB src dst) :=
  two_bounds (encG2_length _ _ _)

theorem LengthMatches.daddW (src : Opnd) (dst : Opnd) : LengthMatches.Statement (.daddW src dst) :=
  two_bounds (encG2_length _ _ _)

theorem LengthMatches.dsubB (src : Opnd) (dst : Opnd) : LengthMatches.Statement (.dsubB src dst) :=
  two_bounds (encG2_length _ _ _)

theorem LengthMatches.dsubW (src : Opnd) (dst : Opnd) : LengthMatches.Statement (.dsubW src dst) :=
  two_bounds (encG2_length _ _ _)

theorem LengthMatches.extsB (src : Opnd) (dst : Opnd) : LengthMatches.Statement (.extsB src dst) :=
  two_bounds (encG2_length _ _ _)

theorem LengthMatches.extsW (src : Opnd) (dst : Opnd) : LengthMatches.Statement (.extsW src dst) :=
  two_bounds (encG2_length _ _ _)

theorem LengthMatches.extzB (src : Opnd) (dst : Opnd) : LengthMatches.Statement (.extzB src dst) :=
  two_bounds (encG2_length _ _ _)

theorem LengthMatches.extzW (src : Opnd) (dst : Opnd) : LengthMatches.Statement (.extzW src dst) :=
  two_bounds (encG2_length _ _ _)

theorem LengthMatches.lea (src : Opnd) (dst : Opnd) : LengthMatches.Statement (.lea src dst) :=
  two_bounds (encG2_length _ _ _)

theorem LengthMatches.movBImm (dst : Opnd) (imm : BitVec 8) : LengthMatches.Statement (.movBImm dst imm) :=
  one_bounds (encImm_length _ _ _) (Nat.le_of_ble_eq_true rfl) (Nat.le_of_ble_eq_true rfl)

theorem LengthMatches.movWImm (dst : Opnd) (imm : BitVec 16) : LengthMatches.Statement (.movWImm dst imm) :=
  one_bounds (encImm_length _ _ _) (Nat.le_of_ble_eq_true rfl) (Nat.le_of_ble_eq_true rfl)

theorem LengthMatches.movLImm (dst : Opnd) (imm : BitVec 32) : LengthMatches.Statement (.movLImm dst imm) :=
  one_bounds (encImm_length _ _ _) (Nat.le_of_ble_eq_true rfl) (Nat.le_of_ble_eq_true rfl)

theorem LengthMatches.addBImm (dst : Opnd) (imm : BitVec 8) : LengthMatches.Statement (.addBImm dst imm) :=
  one_bounds (encImm_length _ _ _) (Nat.le_of_ble_eq_true rfl) (Nat.le_of_ble_eq_true rfl)

theorem LengthMatches.addWImm (dst : Opnd) (imm : BitVec 16) : LengthMatches.Statement (.addWImm dst imm) :=
  one_bounds (encImm_length _ _ _) (Nat.le_of_ble_eq_true rfl) (Nat.le_of_ble_eq_true rfl)

theorem LengthMatches.addLImm (dst : Opnd) (imm : BitVec 32) : LengthMatches.Statement (.addLImm dst imm) :=
  one_bounds (encImm_length _ _ _) (Nat.le_of_ble_eq_true rfl) (Nat.le_of_ble_eq_true rfl)

theorem LengthMatches.subBImm (dst : Opnd) (imm : BitVec 8) : LengthMatches.Statement (.subBImm dst imm) :=
  one_bounds (encImm_length _ _ _) (Nat.le_of_ble_eq_true rfl) (Nat.le_of_ble_eq_true rfl)

theorem LengthMatches.subWImm (dst : Opnd) (imm : BitVec 16) : LengthMatches.Statement (.subWImm dst imm) :=
  one_bounds (encImm_length _ _ _) (Nat.le_of_ble_eq_true rfl) (Nat.le_of_ble_eq_true rfl)

theorem LengthMatches.subLImm (dst : Opnd) (imm : BitVec 32) : LengthMatches.Statement (.subLImm dst imm) :=
  one_bounds (encImm_length _ _ _) (Nat.le_of_ble_eq_true rfl) (Nat.le_of_ble_eq_true rfl)

theorem LengthMatches.cmpBImm (dst : Opnd) (imm : BitVec 8) : LengthMatches.Statement (.cmpBImm dst imm) :=
  one_bounds (encImm_length _ _ _) (Nat.le_of_ble_eq_true rfl) (Nat.le_of_ble_eq_true rfl)

theorem LengthMatches.cmpWImm (dst : Opnd) (imm : BitVec 16) : LengthMatches.Statement (.cmpWImm dst imm) :=
  one_bounds (encImm_length _ _ _) (Nat.le_of_ble_eq_true rfl) (Nat.le_of_ble_eq_true rfl)

theorem LengthMatches.cmpLImm (dst : Opnd) (imm : BitVec 32) : LengthMatches.Statement (.cmpLImm dst imm) :=
  one_bounds (encImm_length _ _ _) (Nat.le_of_ble_eq_true rfl) (Nat.le_of_ble_eq_true rfl)

theorem LengthMatches.andBImm (dst : Opnd) (imm : BitVec 8) : LengthMatches.Statement (.andBImm dst imm) :=
  one_bounds (encImm_length _ _ _) (Nat.le_of_ble_eq_true rfl) (Nat.le_of_ble_eq_true rfl)

theorem LengthMatches.andWImm (dst : Opnd) (imm : BitVec 16) : LengthMatches.Statement (.andWImm dst imm) :=
  one_bounds (encImm_length _ _ _) (Nat.le_of_ble_eq_true rfl) (Nat.le_of_ble_eq_true rfl)

theorem LengthMatches.andLImm (dst : Opnd) (imm : BitVec 32) : LengthMatches.Statement (.andLImm dst imm) :=
  one_bounds (encImm_length _ _ _) (Nat.le_of_ble_eq_true rfl) (Nat.le_of_ble_eq_true rfl)

theorem LengthMatches.orBImm (dst : Opnd) (imm : BitVec 8) : LengthMatches.Statement (.orBImm dst imm) :=
  one_bounds (encImm_length _ _ _) (Nat.le_of_ble_eq_true rfl) (Nat.le_of_ble_eq_true rfl)

theorem LengthMatches.orWImm (dst : Opnd) (imm : BitVec 16) : LengthMatches.Statement (.orWImm dst imm) :=
  one_bounds (encImm_length _ _ _) (Nat.le_of_ble_eq_true rfl) (Nat.le_of_ble_eq_true rfl)

theorem LengthMatches.orLImm (dst : Opnd) (imm : BitVec 32) : LengthMatches.Statement (.orLImm dst imm) :=
  one_bounds (encImm_length _ _ _) (Nat.le_of_ble_eq_true rfl) (Nat.le_of_ble_eq_true rfl)

theorem LengthMatches.xorBImm (dst : Opnd) (imm : BitVec 8) : LengthMatches.Statement (.xorBImm dst imm) :=
  one_bounds (encImm_length _ _ _) (Nat.le_of_ble_eq_true rfl) (Nat.le_of_ble_eq_true rfl)

theorem LengthMatches.xorWImm (dst : Opnd) (imm : BitVec 16) : LengthMatches.Statement (.xorWImm dst imm) :=
  one_bounds (encImm_length _ _ _) (Nat.le_of_ble_eq_true rfl) (Nat.le_of_ble_eq_true rfl)

theorem LengthMatches.xorLImm (dst : Opnd) (imm : BitVec 32) : LengthMatches.Statement (.xorLImm dst imm) :=
  one_bounds (encImm_length _ _ _) (Nat.le_of_ble_eq_true rfl) (Nat.le_of_ble_eq_true rfl)

theorem LengthMatches.tstBImm (dst : Opnd) (imm : BitVec 8) : LengthMatches.Statement (.tstBImm dst imm) :=
  one_bounds (encImm_length _ _ _) (Nat.le_of_ble_eq_true rfl) (Nat.le_of_ble_eq_true rfl)

theorem LengthMatches.tstWImm (dst : Opnd) (imm : BitVec 16) : LengthMatches.Statement (.tstWImm dst imm) :=
  one_bounds (encImm_length _ _ _) (Nat.le_of_ble_eq_true rfl) (Nat.le_of_ble_eq_true rfl)

theorem LengthMatches.tstLImm (dst : Opnd) (imm : BitVec 32) : LengthMatches.Statement (.tstLImm dst imm) :=
  one_bounds (encImm_length _ _ _) (Nat.le_of_ble_eq_true rfl) (Nat.le_of_ble_eq_true rfl)

theorem LengthMatches.addqB (imm : BitVec 4) (dst : Opnd) : LengthMatches.Statement (.addqB imm dst) :=
  one_bounds (encOne_length _ _ _) (by decide) (by decide)

theorem LengthMatches.addqW (imm : BitVec 4) (dst : Opnd) : LengthMatches.Statement (.addqW imm dst) :=
  one_bounds (encOne_length _ _ _) (by decide) (by decide)

theorem LengthMatches.addqL (imm : BitVec 4) (dst : Opnd) : LengthMatches.Statement (.addqL imm dst) :=
  one_bounds (encOne_length _ _ _) (by decide) (by decide)

theorem LengthMatches.shlB (n : BitVec 4) (dst : Opnd) : LengthMatches.Statement (.shlB n dst) :=
  one_bounds (encOne_length _ _ _) (by decide) (by decide)

theorem LengthMatches.shlW (n : BitVec 4) (dst : Opnd) : LengthMatches.Statement (.shlW n dst) :=
  one_bounds (encOne_length _ _ _) (by decide) (by decide)

theorem LengthMatches.shlL (n : BitVec 4) (dst : Opnd) : LengthMatches.Statement (.shlL n dst) :=
  one_bounds (encOne_length _ _ _) (by decide) (by decide)

theorem LengthMatches.shrB (n : BitVec 4) (dst : Opnd) : LengthMatches.Statement (.shrB n dst) :=
  one_bounds (encOne_length _ _ _) (by decide) (by decide)

theorem LengthMatches.shrW (n : BitVec 4) (dst : Opnd) : LengthMatches.Statement (.shrW n dst) :=
  one_bounds (encOne_length _ _ _) (by decide) (by decide)

theorem LengthMatches.shrL (n : BitVec 4) (dst : Opnd) : LengthMatches.Statement (.shrL n dst) :=
  one_bounds (encOne_length _ _ _) (by decide) (by decide)

theorem LengthMatches.sarB (n : BitVec 4) (dst : Opnd) : LengthMatches.Statement (.sarB n dst) :=
  one_bounds (encOne_length _ _ _) (by decide) (by decide)

theorem LengthMatches.sarW (n : BitVec 4) (dst : Opnd) : LengthMatches.Statement (.sarW n dst) :=
  one_bounds (encOne_length _ _ _) (by decide) (by decide)

theorem LengthMatches.sarL (n : BitVec 4) (dst : Opnd) : LengthMatches.Statement (.sarL n dst) :=
  one_bounds (encOne_length _ _ _) (by decide) (by decide)

theorem LengthMatches.rolB (n : BitVec 4) (dst : Opnd) : LengthMatches.Statement (.rolB n dst) :=
  one_bounds (encOne_length _ _ _) (by decide) (by decide)

theorem LengthMatches.rolW (n : BitVec 4) (dst : Opnd) : LengthMatches.Statement (.rolW n dst) :=
  one_bounds (encOne_length _ _ _) (by decide) (by decide)

theorem LengthMatches.rolL (n : BitVec 4) (dst : Opnd) : LengthMatches.Statement (.rolL n dst) :=
  one_bounds (encOne_length _ _ _) (by decide) (by decide)

theorem LengthMatches.rorB (n : BitVec 4) (dst : Opnd) : LengthMatches.Statement (.rorB n dst) :=
  one_bounds (encOne_length _ _ _) (by decide) (by decide)

theorem LengthMatches.rorW (n : BitVec 4) (dst : Opnd) : LengthMatches.Statement (.rorW n dst) :=
  one_bounds (encOne_length _ _ _) (by decide) (by decide)

theorem LengthMatches.rorL (n : BitVec 4) (dst : Opnd) : LengthMatches.Statement (.rorL n dst) :=
  one_bounds (encOne_length _ _ _) (by decide) (by decide)

theorem LengthMatches.notB (dst : Opnd) : LengthMatches.Statement (.notB dst) :=
  one_bounds (encOne_length _ _ _) (by decide) (by decide)

theorem LengthMatches.notW (dst : Opnd) : LengthMatches.Statement (.notW dst) :=
  one_bounds (encOne_length _ _ _) (by decide) (by decide)

theorem LengthMatches.notL (dst : Opnd) : LengthMatches.Statement (.notL dst) :=
  one_bounds (encOne_length _ _ _) (by decide) (by decide)

theorem LengthMatches.negB (dst : Opnd) : LengthMatches.Statement (.negB dst) :=
  one_bounds (encOne_length _ _ _) (by decide) (by decide)

theorem LengthMatches.negW (dst : Opnd) : LengthMatches.Statement (.negW dst) :=
  one_bounds (encOne_length _ _ _) (by decide) (by decide)

theorem LengthMatches.negL (dst : Opnd) : LengthMatches.Statement (.negL dst) :=
  one_bounds (encOne_length _ _ _) (by decide) (by decide)

theorem LengthMatches.pushB (src : Opnd) : LengthMatches.Statement (.pushB src) :=
  one_bounds (encOne_length _ _ _) (by decide) (by decide)

theorem LengthMatches.pushW (src : Opnd) : LengthMatches.Statement (.pushW src) :=
  one_bounds (encOne_length _ _ _) (by decide) (by decide)

theorem LengthMatches.pushL (src : Opnd) : LengthMatches.Statement (.pushL src) :=
  one_bounds (encOne_length _ _ _) (by decide) (by decide)

theorem LengthMatches.popB (dst : Opnd) : LengthMatches.Statement (.popB dst) :=
  one_bounds (encOne_length _ _ _) (by decide) (by decide)

theorem LengthMatches.popW (dst : Opnd) : LengthMatches.Statement (.popW dst) :=
  one_bounds (encOne_length _ _ _) (by decide) (by decide)

theorem LengthMatches.popL (dst : Opnd) : LengthMatches.Statement (.popL dst) :=
  one_bounds (encOne_length _ _ _) (by decide) (by decide)

theorem LengthMatches.pusha (src : Opnd) : LengthMatches.Statement (.pusha src) :=
  one_bounds (encOne_length _ _ _) (by decide) (by decide)

theorem LengthMatches.jmpi (src : Opnd) : LengthMatches.Statement (.jmpi src) :=
  one_bounds (encOne_length _ _ _) (by decide) (by decide)

theorem LengthMatches.jsri (src : Opnd) : LengthMatches.Statement (.jsri src) :=
  one_bounds (encOne_length _ _ _) (by decide) (by decide)

theorem LengthMatches.indexbB (src : Opnd) : LengthMatches.Statement (.indexbB src) :=
  one_bounds (encOne_length _ _ _) (by decide) (by decide)

theorem LengthMatches.indexbW (src : Opnd) : LengthMatches.Statement (.indexbW src) :=
  one_bounds (encOne_length _ _ _) (by decide) (by decide)

theorem LengthMatches.indexwB (src : Opnd) : LengthMatches.Statement (.indexwB src) :=
  one_bounds (encOne_length _ _ _) (by decide) (by decide)

theorem LengthMatches.indexwW (src : Opnd) : LengthMatches.Statement (.indexwW src) :=
  one_bounds (encOne_length _ _ _) (by decide) (by decide)

theorem LengthMatches.indexlB (src : Opnd) : LengthMatches.Statement (.indexlB src) :=
  one_bounds (encOne_length _ _ _) (by decide) (by decide)

theorem LengthMatches.indexlW (src : Opnd) : LengthMatches.Statement (.indexlW src) :=
  one_bounds (encOne_length _ _ _) (by decide) (by decide)

theorem LengthMatches.bitindexB (src : Opnd) : LengthMatches.Statement (.bitindexB src) :=
  one_bounds (encOne_length _ _ _) (by decide) (by decide)

theorem LengthMatches.bitindexW (src : Opnd) : LengthMatches.Statement (.bitindexW src) :=
  one_bounds (encOne_length _ _ _) (by decide) (by decide)

theorem LengthMatches.ldcFlg (src : Opnd) : LengthMatches.Statement (.ldcFlg src) :=
  one_bounds (encOne_length _ _ _) (by decide) (by decide)

theorem LengthMatches.ldcSp (src : Opnd) : LengthMatches.Statement (.ldcSp src) :=
  one_bounds (encOne_length _ _ _) (by decide) (by decide)

theorem LengthMatches.ldcIntb (src : Opnd) : LengthMatches.Statement (.ldcIntb src) :=
  one_bounds (encOne_length _ _ _) (by decide) (by decide)

theorem LengthMatches.stcFlg (dst : Opnd) : LengthMatches.Statement (.stcFlg dst) :=
  one_bounds (encOne_length _ _ _) (by decide) (by decide)

theorem LengthMatches.stcSp (dst : Opnd) : LengthMatches.Statement (.stcSp dst) :=
  one_bounds (encOne_length _ _ _) (by decide) (by decide)

theorem LengthMatches.stcIntb (dst : Opnd) : LengthMatches.Statement (.stcIntb dst) :=
  one_bounds (encOne_length _ _ _) (by decide) (by decide)

theorem LengthMatches.scCnd (c : Cnd) (dst : Opnd) : LengthMatches.Statement (.scCnd c dst) :=
  one_bounds (encOne_length _ _ _) (by decide) (by decide)

theorem LengthMatches.bset (bit : BitVec 3) (dst : Opnd) : LengthMatches.Statement (.bset bit dst) :=
  one_bounds (encOne_length _ _ _) (by decide) (by decide)

theorem LengthMatches.bclr (bit : BitVec 3) (dst : Opnd) : LengthMatches.Statement (.bclr bit dst) :=
  one_bounds (encOne_length _ _ _) (by decide) (by decide)

theorem LengthMatches.bnot (bit : BitVec 3) (dst : Opnd) : LengthMatches.Statement (.bnot bit dst) :=
  one_bounds (encOne_length _ _ _) (by decide) (by decide)

theorem LengthMatches.btst (bit : BitVec 3) (src : Opnd) : LengthMatches.Statement (.btst bit src) :=
  one_bounds (encOne_length _ _ _) (by decide) (by decide)

theorem LengthMatches.bmCnd (bit : BitVec 3) (c : Cnd) (dst : Opnd) : LengthMatches.Statement (.bmCnd bit c dst) :=
  one_bounds (encOne_length _ _ _) (by decide) (by decide)

theorem LengthMatches.fsetC : LengthMatches.Statement .fsetC :=
  ⟨by decide, by decide, by decide⟩

theorem LengthMatches.fsetZ : LengthMatches.Statement .fsetZ :=
  ⟨by decide, by decide, by decide⟩

theorem LengthMatches.fsetS : LengthMatches.Statement .fsetS :=
  ⟨by decide, by decide, by decide⟩

theorem LengthMatches.fsetO : LengthMatches.Statement .fsetO :=
  ⟨by decide, by decide, by decide⟩

theorem LengthMatches.fsetI : LengthMatches.Statement .fsetI :=
  ⟨by decide, by decide, by decide⟩

theorem LengthMatches.jCnd (c : Cnd) (rel : BitVec 8) : LengthMatches.Statement (.jCnd c rel) :=
  ⟨Nat.le_of_ble_eq_true rfl, Nat.le_of_ble_eq_true rfl, Nat.le_of_ble_eq_true rfl⟩

theorem LengthMatches.jmpW (rel : BitVec 16) : LengthMatches.Statement (.jmpW rel) :=
  ⟨Nat.le_of_ble_eq_true rfl, Nat.le_of_ble_eq_true rfl, Nat.le_of_ble_eq_true rfl⟩

theorem LengthMatches.jmpA (target : Addr) : LengthMatches.Statement (.jmpA target) :=
  ⟨Nat.le_of_ble_eq_true rfl, Nat.le_of_ble_eq_true rfl, Nat.le_of_ble_eq_true rfl⟩

theorem LengthMatches.jsrW (rel : BitVec 16) : LengthMatches.Statement (.jsrW rel) :=
  ⟨Nat.le_of_ble_eq_true rfl, Nat.le_of_ble_eq_true rfl, Nat.le_of_ble_eq_true rfl⟩

theorem LengthMatches.jsrA (target : Addr) : LengthMatches.Statement (.jsrA target) :=
  ⟨Nat.le_of_ble_eq_true rfl, Nat.le_of_ble_eq_true rfl, Nat.le_of_ble_eq_true rfl⟩

theorem LengthMatches.rts : LengthMatches.Statement .rts :=
  ⟨by decide, by decide, by decide⟩

theorem LengthMatches.reit : LengthMatches.Statement .reit :=
  ⟨by decide, by decide, by decide⟩

theorem LengthMatches.int (vector : BitVec 8) : LengthMatches.Statement (.int vector) :=
  ⟨Nat.le_of_ble_eq_true rfl, Nat.le_of_ble_eq_true rfl, Nat.le_of_ble_eq_true rfl⟩

theorem LengthMatches.fclrC : LengthMatches.Statement .fclrC :=
  ⟨by decide, by decide, by decide⟩

theorem LengthMatches.fclrZ : LengthMatches.Statement .fclrZ :=
  ⟨by decide, by decide, by decide⟩

theorem LengthMatches.fclrS : LengthMatches.Statement .fclrS :=
  ⟨by decide, by decide, by decide⟩

theorem LengthMatches.fclrO : LengthMatches.Statement .fclrO :=
  ⟨by decide, by decide, by decide⟩

theorem LengthMatches.fclrI : LengthMatches.Statement .fclrI :=
  ⟨by decide, by decide, by decide⟩

end Sys2Proof.Laws
end

