-- ==== Sys2Proof/Laws/Resolver.lean ====
section
/-! SUPPORT. What the legality masks admit, and that an operand its use admits resolves, with the number of data accesses
of its accessor. -/

namespace Sys2Proof.Machine

open Sys2Proof

theorem legal_lmAll (o : Opnd) : legal lmAll o = true := by
  cases o with
  | dreg r => cases r <;> rfl
  | areg a => cases a <;> simp [legal, lmAll, Opnd.mode, AReg.bit]
  | ind a => cases a <;> simp [legal, lmAll, Opnd.mode, AReg.bit]
  | dsp8 a d => cases a <;> simp [legal, lmAll, Opnd.mode, AReg.bit]
  | dsp16 a d => cases a <;> simp [legal, lmAll, Opnd.mode, AReg.bit]
  | dsp24 a d => cases a <;> simp [legal, lmAll, Opnd.mode, AReg.bit]
  | abs16 d => simp [legal, lmAll, Opnd.mode]
  | abs24 d => simp [legal, lmAll, Opnd.mode]

theorem legal_lmL (o : Opnd) : legal lmL o = !o.isR2R3 := by
  cases o with
  | dreg r => cases r <;> rfl
  | areg a => cases a <;> simp [legal, lmL, Opnd.mode, AReg.bit, Opnd.isR2R3]
  | ind a => cases a <;> simp [legal, lmL, Opnd.mode, AReg.bit, Opnd.isR2R3]
  | dsp8 a d => cases a <;> simp [legal, lmL, Opnd.mode, AReg.bit, Opnd.isR2R3]
  | dsp16 a d => cases a <;> simp [legal, lmL, Opnd.mode, AReg.bit, Opnd.isR2R3]
  | dsp24 a d => cases a <;> simp [legal, lmL, Opnd.mode, AReg.bit, Opnd.isR2R3]
  | abs16 d => simp [legal, lmL, Opnd.mode, Opnd.isR2R3]
  | abs24 d => simp [legal, lmL, Opnd.mode, Opnd.isR2R3]

theorem legal_lmPtr (o : Opnd) : legal lmPtr o = o.isMem := by
  cases o with
  | dreg r => cases r <;> rfl
  | areg a => cases a <;> simp [legal, lmPtr, Opnd.mode, AReg.bit, Opnd.isMem]
  | ind a => cases a <;> simp [legal, lmPtr, Opnd.mode, AReg.bit, Opnd.isMem]
  | dsp8 a d => cases a <;> simp [legal, lmPtr, Opnd.mode, AReg.bit, Opnd.isMem]
  | dsp16 a d => cases a <;> simp [legal, lmPtr, Opnd.mode, AReg.bit, Opnd.isMem]
  | dsp24 a d => cases a <;> simp [legal, lmPtr, Opnd.mode, AReg.bit, Opnd.isMem]
  | abs16 d => simp [legal, lmPtr, Opnd.mode, Opnd.isMem]
  | abs24 d => simp [legal, lmPtr, Opnd.mode, Opnd.isMem]

theorem legal_lmBit (o : Opnd) : legal lmBit o = !o.isAReg := by
  cases o with
  | dreg r => cases r <;> rfl
  | areg a => cases a <;> simp [legal, lmBit, Opnd.mode, AReg.bit, Opnd.isAReg]
  | ind a => cases a <;> simp [legal, lmBit, Opnd.mode, AReg.bit, Opnd.isAReg]
  | dsp8 a d => cases a <;> simp [legal, lmBit, Opnd.mode, AReg.bit, Opnd.isAReg]
  | dsp16 a d => cases a <;> simp [legal, lmBit, Opnd.mode, AReg.bit, Opnd.isAReg]
  | dsp24 a d => cases a <;> simp [legal, lmBit, Opnd.mode, AReg.bit, Opnd.isAReg]
  | abs16 d => simp [legal, lmBit, Opnd.mode, Opnd.isAReg]
  | abs24 d => simp [legal, lmBit, Opnd.mode, Opnd.isAReg]

/-- A value operand that its use admits, with promotion allowed. -/
theorem resolve_of_admits_allow {w : Width} {o : Opnd} (h : (OpndUse.value w true).admits o = true) (s : State) :
    ∃ x, resolve o w (lmValue w) .allow s = some x ∧ x.calls = if o.isMem then 1 else 0 := by
  unfold resolve
  cases w <;> simp only [lmValue, legal_lmAll, legal_lmL]
  all_goals cases o <;> simp [OpndUse.admits, Opnd.isR2R3, promoted, effAddr, Opnd.isMem, Acc.calls] at h ⊢
  all_goals (rename_i r; cases r <;> simp_all [regView])

/-- A value operand that its use admits, with promotion forbidden. -/
theorem resolve_of_admits_forbid {w : Width} {o : Opnd} (h : (OpndUse.value w false).admits o = true) (s : State) :
    ∃ x, resolve o w (lmValue w) .forbid s = some x ∧ x.calls = if o.isMem then 1 else 0 := by
  unfold resolve
  cases w <;> simp only [lmValue, legal_lmAll, legal_lmL]
  all_goals cases o <;> simp [OpndUse.admits, Opnd.isR2R3, Opnd.isAReg, promoted, effAddr, Opnd.isMem, Acc.calls] at h ⊢
  all_goals (rename_i r; cases r <;> simp_all [regView])

/-- A pointer operand in a memory mode. -/
theorem resolvePtr_of_isMem {o : Opnd} (h : o.isMem = true) (s : State) : ∃ ea, resolvePtr o lmPtr s = some ea := by
  unfold resolvePtr
  rw [legal_lmPtr, h]
  cases o <;> simp_all [effAddr, Opnd.isMem]

/-- The base of a bit operand that is no address register. -/
theorem resolveBit_of_not_isAReg {o : Opnd} (h : o.isAReg = false) (bit : BitVec 3) (s : State) :
    ∃ p, resolveBit o bit s = some p ∧ p.1.calls = if o.isMem then 1 else 0 := by
  unfold resolveBit
  rw [legal_lmBit, h]
  cases o <;> simp_all [effAddr, Opnd.isMem, Acc.calls, Opnd.isAReg]
  rename_i r
  cases r <;> simp [regView]

end Sys2Proof.Machine
end

