-- ==== Sys2Proof/Tests/Slice0.lean ====
section
/-! SUPPORT. Tests of the model: ill-formed terms, decoding of words written from the spec's encodings, single steps with
the spec's own test vectors, and witnesses that the hypotheses of the obligations can be met. -/

namespace Sys2Proof.Tests

open Sys2Proof Sys2Proof.Machine Sys2Proof.Claims

/-! ## Well-formedness: for each check an ill-formed term it refuses, and a neighbour it admits -/

/-- A 32-bit operand on modes 2 and 3 (41_resolver.md R189). -/
theorem test_wellFormed_long :
    (Instr.movL (.dreg .r2) (.dreg .r0)).wellFormed = false ∧ (Instr.movL (.dreg .r0) (.dreg .r3)).wellFormed = false ∧
    (Instr.movL (.dreg .r0) (.areg .a1)).wellFormed = true := by decide

/-- A register where the operand is a pointer (41_resolver.md R183). -/
theorem test_wellFormed_pointer :
    (Instr.lea (.dreg .r0) (.areg .a0)).wellFormed = false ∧ (Instr.jmpi (.areg .a0)).wellFormed = false ∧
    (Instr.pusha (.ind .a0)).wellFormed = true := by decide

/-- An address register under a bit number (41_resolver.md R188). -/
theorem test_wellFormed_bit :
    (Instr.bset 0#3 (.areg .a0)).wellFormed = false ∧ (Instr.bset 0#3 (.dreg .r3)).wellFormed = true := by decide

/-- An address register at 8 bits where promotion is forbidden (41_resolver.md R175), and where it is allowed. -/
theorem test_wellFormed_promotion :
    (Instr.daddB (.areg .a0) (.dreg .r0)).wellFormed = false ∧ (Instr.extsB (.areg .a0) (.dreg .r0)).wellFormed = false ∧
    (Instr.shlB 0#4 (.areg .a1)).wellFormed = false ∧ (Instr.addB (.areg .a0) (.areg .a1)).wellFormed = true := by decide

/-- The mode code reported is the first one in resolution order (test vectors `12 22` and `48 04`). -/
theorem test_firstIllegalMode :
    (Instr.movL (.dreg .r2) (.dreg .r3)).firstIllegalMode = some 2#4 ∧
    (Instr.lea (.dreg .r0) (.areg .a0)).firstIllegalMode = some 0#4 ∧
    (Instr.movL (.dreg .r0) (.dreg .r3)).firstIllegalMode = some 3#4 := by decide

/-! ## Decoding: every constructor, by bytes written out from the encoding -/

/-- Words of these instructions, written from the opcode table and the mode codes of 41_resolver.md R173. -/
theorem test_decode_flag_and_one_byte :
    decode [0x01#8] = .ok (.nop) [] ∧
    decode [0xD8#8] = .ok (.fsetC) [] ∧
    decode [0xD9#8] = .ok (.fsetZ) [] ∧
    decode [0xDA#8] = .ok (.fsetS) [] ∧
    decode [0xDB#8] = .ok (.fsetO) [] ∧
    decode [0xDC#8] = .ok (.fsetI) [] ∧
    decode [0xF4#8] = .ok (.rts) [] ∧
    decode [0xF5#8] = .ok (.reit) [] ∧
    decode [0xF8#8] = .ok (.fclrC) [] ∧
    decode [0xF9#8] = .ok (.fclrZ) [] ∧
    decode [0xFA#8] = .ok (.fclrS) [] ∧
    decode [0xFB#8] = .ok (.fclrO) [] ∧
    decode [0xFC#8] = .ok (.fclrI) [] :=
  ⟨rfl, rfl, rfl, rfl, rfl, rfl, rfl, rfl, rfl, rfl, rfl, rfl, rfl⟩

/-- Words of these instructions, written from the opcode table and the mode codes of 41_resolver.md R173. -/
theorem test_decode_moves :
    decode [0x10#8, 0x81#8, 0xA3#8] = .ok (.movB (.dsp8 .a0 0xA3#8) (.dreg .r1)) [] ∧
    decode [0x11#8, 0xD8#8, 0xB4#8, 0xD5#8, 0xF6#8, 0xE7#8] =
      .ok (.movW (.dsp24 .a1 0xF6D5B4#24) (.dsp8 .a0 0xE7#8)) [] ∧
    decode [0x12#8, 0x2F#8, 0xF8#8, 0x19#8, 0x3A#8] = .ok (.movL (.dreg .r2) (.abs24 0x3A19F8#24)) [] :=
  ⟨rfl, rfl, rfl⟩

/-- Words of these instructions, written from the opcode table and the mode codes of 41_resolver.md R173. -/
theorem test_decode_sums :
    decode [0x14#8, 0x76#8] = .ok (.addB (.ind .a1) (.ind .a0)) [] ∧
    decode [0x15#8, 0xCD#8, 0xE7#8, 0x08#8, 0x29#8, 0xA3#8, 0xC4#8, 0xE5#8] =
      .ok (.addW (.dsp24 .a0 0x2908E7#24) (.dsp24 .a1 0xE5C4A3#24)) [] ∧
    decode [0x16#8, 0x14#8] = .ok (.addL (.dreg .r1) (.areg .a0)) [] ∧
    decode [0x18#8, 0x6B#8, 0xC5#8, 0xE6#8] = .ok (.adcB (.ind .a0) (.dsp16 .a1 0xE6C5#16)) [] ∧
    decode [0x19#8, 0xB2#8, 0xA3#8, 0xC4#8] = .ok (.adcW (.dsp16 .a1 0xC4A3#16) (.dreg .r2)) [] ∧
    decode [0x1A#8, 0x09#8, 0xE7#8] = .ok (.adcL (.dreg .r0) (.dsp8 .a1 0xE7#8)) [] :=
  ⟨rfl, rfl, rfl, rfl, rfl, rfl⟩

/-- Words of these instructions, written from the opcode table and the mode codes of 41_resolver.md R173. -/
theorem test_decode_differences :
    decode [0x1C#8, 0x50#8] = .ok (.subB (.areg .a1) (.dreg .r0)) [] ∧
    decode [0x1D#8, 0xA7#8, 0xD6#8, 0xF7#8] = .ok (.subW (.dsp16 .a0 0xF7D6#16) (.ind .a1)) [] ∧
    decode [0x1E#8, 0xFE#8, 0xE7#8, 0x08#8, 0x29#8, 0xA3#8, 0xC4#8] =
      .ok (.subL (.abs24 0x2908E7#24) (.abs16 0xC4A3#16)) [] ∧
    decode [0x20#8, 0x45#8] = .ok (.sbbB (.areg .a0) (.areg .a1)) [] ∧
    decode [0x21#8, 0x9C#8, 0x92#8, 0xC5#8, 0xE6#8, 0x07#8] =
      .ok (.sbbW (.dsp8 .a1 0x92#8) (.dsp24 .a0 0x07E6C5#24)) [] ∧
    decode [0x22#8, 0xE3#8, 0xA3#8, 0xC4#8] = .ok (.sbbL (.abs16 0xC4A3#16) (.dreg .r3)) [] ∧
    decode [0x24#8, 0x3A#8, 0xE7#8, 0x08#8] = .ok (.cmpB (.dreg .r3) (.dsp16 .a0 0x08E7#16)) [] ∧
    decode [0x25#8, 0x81#8, 0xC5#8] = .ok (.cmpW (.dsp8 .a0 0xC5#8) (.dreg .r1)) [] ∧
    decode [0x26#8, 0xD8#8, 0xD6#8, 0xF7#8, 0x18#8, 0x92#8] =
      .ok (.cmpL (.dsp24 .a1 0x18F7D6#24) (.dsp8 .a0 0x92#8)) [] :=
  ⟨rfl, rfl, rfl, rfl, rfl, rfl, rfl, rfl, rfl⟩

/-- Words of these instructions, written from the opcode table and the mode codes of 41_resolver.md R173. -/
theorem test_decode_logic :
    decode [0x28#8, 0x2F#8, 0xA3#8, 0xC4#8, 0xE5#8] = .ok (.andB (.dreg .r2) (.abs24 0xE5C4A3#24)) [] ∧
    decode [0x29#8, 0x76#8] = .ok (.andW (.ind .a1) (.ind .a0)) [] ∧
    decode [0x2A#8, 0xCD#8, 0x92#8, 0xB3#8, 0xD4#8, 0xC5#8, 0xE6#8, 0x07#8] =
      .ok (.andL (.dsp24 .a0 0xD4B392#24) (.dsp24 .a1 0x07E6C5#24)) [] ∧
    decode [0x2C#8, 0x14#8] = .ok (.orB (.dreg .r1) (.areg .a0)) [] ∧
    decode [0x2D#8, 0x6B#8, 0xE7#8, 0x08#8] = .ok (.orW (.ind .a0) (.dsp16 .a1 0x08E7#16)) [] ∧
    decode [0x2E#8, 0xB2#8, 0xC5#8, 0xE6#8] = .ok (.orL (.dsp16 .a1 0xE6C5#16) (.dreg .r2)) [] ∧
    decode [0x30#8, 0x09#8, 0x92#8] = .ok (.xorB (.dreg .r0) (.dsp8 .a1 0x92#8)) [] ∧
    decode [0x31#8, 0x50#8] = .ok (.xorW (.areg .a1) (.dreg .r0)) [] ∧
    decode [0x32#8, 0xA7#8, 0xF8#8, 0x19#8] = .ok (.xorL (.dsp16 .a0 0x19F8#16) (.ind .a1)) [] ∧
    decode [0x34#8, 0xFE#8, 0x92#8, 0xB3#8, 0xD4#8, 0xC5#8, 0xE6#8] =
      .ok (.tstB (.abs24 0xD4B392#24) (.abs16 0xE6C5#16)) [] ∧
    decode [0x35#8, 0x45#8] = .ok (.tstW (.areg .a0) (.areg .a1)) [] ∧
    decode [0x36#8, 0x9C#8, 0xB4#8, 0xE7#8, 0x08#8, 0x29#8] =
      .ok (.tstL (.dsp8 .a1 0xB4#8) (.dsp24 .a0 0x2908E7#24)) [] :=
  ⟨rfl, rfl, rfl, rfl, rfl, rfl, rfl, rfl, rfl, rfl, rfl, rfl⟩

/-- Words of these instructions, written from the opcode table and the mode codes of 41_resolver.md R173. -/
theorem test_decode_decimal :
    decode [0x38#8, 0xE3#8, 0xC5#8, 0xE6#8] = .ok (.daddB (.abs16 0xE6C5#16) (.dreg .r3)) [] ∧
    decode [0x39#8, 0x3A#8, 0x92#8, 0xB3#8] = .ok (.daddW (.dreg .r3) (.dsp16 .a0 0xB392#16)) [] ∧
    decode [0x3C#8, 0x81#8, 0xE7#8] = .ok (.dsubB (.dsp8 .a0 0xE7#8) (.dreg .r1)) [] ∧
    decode [0x3D#8, 0xD8#8, 0xF8#8, 0x19#8, 0x3A#8, 0xB4#8] =
      .ok (.dsubW (.dsp24 .a1 0x3A19F8#24) (.dsp8 .a0 0xB4#8)) [] :=
  ⟨rfl, rfl, rfl, rfl⟩

/-- Words of these instructions, written from the opcode table and the mode codes of 41_resolver.md R173. -/
theorem test_decode_extends :
    decode [0x40#8, 0x2F#8, 0xC5#8, 0xE6#8, 0x07#8] = .ok (.extsB (.dreg .r2) (.abs24 0x07E6C5#24)) [] ∧
    decode [0x41#8, 0x76#8] = .ok (.extsW (.ind .a1) (.ind .a0)) [] ∧
    decode [0x44#8, 0xCD#8, 0xB4#8, 0xD5#8, 0xF6#8, 0xE7#8, 0x08#8, 0x29#8] =
      .ok (.extzB (.dsp24 .a0 0xF6D5B4#24) (.dsp24 .a1 0x2908E7#24)) [] ∧
    decode [0x45#8, 0x14#8] = .ok (.extzW (.dreg .r1) (.areg .a0)) [] ∧
    decode [0x48#8, 0x6B#8, 0x92#8, 0xB3#8] = .ok (.lea (.ind .a0) (.dsp16 .a1 0xB392#16)) [] :=
  ⟨rfl, rfl, rfl, rfl, rfl⟩

/-- Words of these instructions, written from the opcode table and the mode codes of 41_resolver.md R173. -/
theorem test_decode_immediate :
    decode [0x50#8, 0x02#8, 0xF5#8] = .ok (.movBImm (.dreg .r2) 0xF5#8) [] ∧
    decode [0x51#8, 0x09#8, 0xB4#8, 0x2C#8, 0x55#8] = .ok (.movWImm (.dsp8 .a1 0xB4#8) 0x552C#16) [] ∧
    decode [0x52#8, 0x00#8, 0x63#8, 0x8C#8, 0xB5#8, 0xDE#8] = .ok (.movLImm (.dreg .r0) 0xDEB58C63#32) [] ∧
    decode [0x54#8, 0x07#8, 0x9A#8] = .ok (.addBImm (.ind .a1) 0x9A#8) [] ∧
    decode [0x55#8, 0x0E#8, 0xE7#8, 0x08#8, 0xD1#8, 0xFA#8] = .ok (.addWImm (.abs16 0x08E7#16) 0xFAD1#16) [] ∧
    decode [0x56#8, 0x05#8, 0x08#8, 0x31#8, 0x5A#8, 0x83#8] = .ok (.addLImm (.areg .a1) 0x835A3108#32) [] ∧
    decode [0x58#8, 0x0C#8, 0x92#8, 0xB3#8, 0xD4#8, 0x3F#8] = .ok (.subBImm (.dsp24 .a0 0xD4B392#24) 0x3F#8) [] ∧
    decode [0x59#8, 0x03#8, 0x76#8, 0x9F#8] = .ok (.subWImm (.dreg .r3) 0x9F76#16) [] ∧
    decode [0x5A#8, 0x0A#8, 0xB4#8, 0xD5#8, 0xAD#8, 0xD6#8, 0xFF#8, 0x28#8] =
      .ok (.subLImm (.dsp16 .a0 0xD5B4#16) 0x28FFD6AD#32) [] ∧
    decode [0x5C#8, 0x01#8, 0xE4#8] = .ok (.cmpBImm (.dreg .r1) 0xE4#8) [] ∧
    decode [0x5D#8, 0x08#8, 0xD6#8, 0x1B#8, 0x44#8] = .ok (.cmpWImm (.dsp8 .a0 0xD6#8) 0x441B#16) [] ∧
    decode [0x5E#8, 0x0F#8, 0xE7#8, 0x08#8, 0x29#8, 0x52#8, 0x7B#8, 0xA4#8, 0xCD#8] =
      .ok (.cmpLImm (.abs24 0x2908E7#24) 0xCDA47B52#32) [] ∧
    decode [0x60#8, 0x06#8, 0x89#8] = .ok (.andBImm (.ind .a0) 0x89#8) [] ∧
    decode [0x61#8, 0x0D#8, 0x92#8, 0xB3#8, 0xD4#8, 0xC0#8, 0xE9#8] =
      .ok (.andWImm (.dsp24 .a1 0xD4B392#24) 0xE9C0#16) [] ∧
    decode [0x62#8, 0x04#8, 0xF7#8, 0x20#8, 0x49#8, 0x72#8] = .ok (.andLImm (.areg .a0) 0x724920F7#32) [] ∧
    decode [0x64#8, 0x0B#8, 0xB4#8, 0xD5#8, 0x2E#8] = .ok (.orBImm (.dsp16 .a1 0xD5B4#16) 0x2E#8) [] ∧
    decode [0x65#8, 0x02#8, 0x65#8, 0x8E#8] = .ok (.orWImm (.dreg .r2) 0x8E65#16) [] ∧
    decode [0x66#8, 0x09#8, 0xD6#8, 0x9C#8, 0xC5#8, 0xEE#8, 0x17#8] =
      .ok (.orLImm (.dsp8 .a1 0xD6#8) 0x17EEC59C#32) [] ∧
    decode [0x68#8, 0x00#8, 0xD3#8] = .ok (.xorBImm (.dreg .r0) 0xD3#8) [] ∧
    decode [0x69#8, 0x07#8, 0x0A#8, 0x33#8] = .ok (.xorWImm (.ind .a1) 0x330A#16) [] ∧
    decode [0x6A#8, 0x0E#8, 0x92#8, 0xB3#8, 0x41#8, 0x6A#8, 0x93#8, 0xBC#8] =
      .ok (.xorLImm (.abs16 0xB392#16) 0xBC936A41#32) [] ∧
    decode [0x6C#8, 0x05#8, 0x78#8] = .ok (.tstBImm (.areg .a1) 0x78#8) [] ∧
    decode [0x6D#8, 0x0C#8, 0xB4#8, 0xD5#8, 0xF6#8, 0xAF#8, 0xD8#8] =
      .ok (.tstWImm (.dsp24 .a0 0xF6D5B4#24) 0xD8AF#16) [] ∧
    decode [0x6E#8, 0x03#8, 0xE6#8, 0x0F#8, 0x38#8, 0x61#8] = .ok (.tstLImm (.dreg .r3) 0x61380FE6#32) [] :=
  ⟨rfl, rfl, rfl, rfl, rfl, rfl, rfl, rfl, rfl, rfl, rfl, rfl, rfl, rfl, rfl, rfl, rfl, rfl, rfl, rfl, rfl, rfl, rfl, rfl⟩

/-- Words of these instructions, written from the opcode table and the mode codes of 41_resolver.md R173. -/
theorem test_decode_quick_and_shift :
    decode [0x70#8, 0x1A#8, 0xD6#8, 0xF7#8] = .ok (.addqB 0x1#4 (.dsp16 .a0 0xF7D6#16)) [] ∧
    decode [0x71#8, 0x41#8] = .ok (.addqW 0x4#4 (.dreg .r1)) [] ∧
    decode [0x72#8, 0x78#8, 0xF8#8] = .ok (.addqL 0x7#4 (.dsp8 .a0 0xF8#8)) [] ∧
    decode [0x74#8, 0xAF#8, 0x92#8, 0xB3#8, 0xD4#8] = .ok (.shlB 0xA#4 (.abs24 0xD4B392#24)) [] ∧
    decode [0x75#8, 0xD6#8] = .ok (.shlW 0xD#4 (.ind .a0)) [] ∧
    decode [0x76#8, 0x0D#8, 0xB4#8, 0xD5#8, 0xF6#8] = .ok (.shlL 0x0#4 (.dsp24 .a1 0xF6D5B4#24)) [] ∧
    decode [0x78#8, 0x34#8] = .ok (.shrB 0x3#4 (.areg .a0)) [] ∧
    decode [0x79#8, 0x6B#8, 0xD6#8, 0xF7#8] = .ok (.shrW 0x6#4 (.dsp16 .a1 0xF7D6#16)) [] ∧
    decode [0x7A#8, 0x92#8] = .ok (.shrL 0x9#4 (.dreg .r2)) [] ∧
    decode [0x7C#8, 0xC9#8, 0xF8#8] = .ok (.sarB 0xC#4 (.dsp8 .a1 0xF8#8)) [] ∧
    decode [0x7D#8, 0xF0#8] = .ok (.sarW 0xF#4 (.dreg .r0)) [] ∧
    decode [0x7E#8, 0x27#8] = .ok (.sarL 0x2#4 (.ind .a1)) [] ∧
    decode [0x80#8, 0x5E#8, 0xB4#8, 0xD5#8] = .ok (.rolB 0x5#4 (.abs16 0xD5B4#16)) [] ∧
    decode [0x81#8, 0x85#8] = .ok (.rolW 0x8#4 (.areg .a1)) [] ∧
    decode [0x82#8, 0xBC#8, 0xD6#8, 0xF7#8, 0x18#8] = .ok (.rolL 0xB#4 (.dsp24 .a0 0x18F7D6#24)) [] ∧
    decode [0x84#8, 0xE3#8] = .ok (.rorB 0xE#4 (.dreg .r3)) [] ∧
    decode [0x85#8, 0x1A#8, 0xF8#8, 0x19#8] = .ok (.rorW 0x1#4 (.dsp16 .a0 0x19F8#16)) [] ∧
    decode [0x86#8, 0x41#8] = .ok (.rorL 0x4#4 (.dreg .r1)) [] :=
  ⟨rfl, rfl, rfl, rfl, rfl, rfl, rfl, rfl, rfl, rfl, rfl, rfl, rfl, rfl, rfl, rfl, rfl, rfl⟩

/-- Words of these instructions, written from the opcode table and the mode codes of 41_resolver.md R173. -/
theorem test_decode_one_operand :
    decode [0x88#8, 0x08#8, 0xA3#8] = .ok (.notB (.dsp8 .a0 0xA3#8)) [] ∧
    decode [0x89#8, 0x0F#8, 0xB4#8, 0xD5#8, 0xF6#8] = .ok (.notW (.abs24 0xF6D5B4#24)) [] ∧
    decode [0x8A#8, 0x06#8] = .ok (.notL (.ind .a0)) [] ∧
    decode [0x8C#8, 0x0D#8, 0xD6#8, 0xF7#8, 0x18#8] = .ok (.negB (.dsp24 .a1 0x18F7D6#24)) [] ∧
    decode [0x8D#8, 0x04#8] = .ok (.negW (.areg .a0)) [] ∧
    decode [0x8E#8, 0x0B#8, 0xF8#8, 0x19#8] = .ok (.negL (.dsp16 .a1 0x19F8#16)) [] ∧
    decode [0x90#8, 0x02#8] = .ok (.pushB (.dreg .r2)) [] ∧
    decode [0x91#8, 0x09#8, 0xA3#8] = .ok (.pushW (.dsp8 .a1 0xA3#8)) [] ∧
    decode [0x92#8, 0x00#8] = .ok (.pushL (.dreg .r0)) [] ∧
    decode [0x94#8, 0x07#8] = .ok (.popB (.ind .a1)) [] ∧
    decode [0x95#8, 0x0E#8, 0xD6#8, 0xF7#8] = .ok (.popW (.abs16 0xF7D6#16)) [] ∧
    decode [0x96#8, 0x05#8] = .ok (.popL (.areg .a1)) [] ∧
    decode [0x9C#8, 0x01#8] = .ok (.indexbB (.dreg .r1)) [] ∧
    decode [0x9D#8, 0x08#8, 0xC5#8] = .ok (.indexbW (.dsp8 .a0 0xC5#8)) [] ∧
    decode [0x9E#8, 0x0F#8, 0xD6#8, 0xF7#8, 0x18#8] = .ok (.indexwB (.abs24 0x18F7D6#24)) [] ∧
    decode [0x9F#8, 0x06#8] = .ok (.indexwW (.ind .a0)) [] ∧
    decode [0xA0#8, 0x0D#8, 0xF8#8, 0x19#8, 0x3A#8] = .ok (.indexlB (.dsp24 .a1 0x3A19F8#24)) [] ∧
    decode [0xA1#8, 0x04#8] = .ok (.indexlW (.areg .a0)) [] ∧
    decode [0xA2#8, 0x0B#8, 0xA3#8, 0xC4#8] = .ok (.bitindexB (.dsp16 .a1 0xC4A3#16)) [] ∧
    decode [0xA3#8, 0x02#8] = .ok (.bitindexW (.dreg .r2)) [] :=
  ⟨rfl, rfl, rfl, rfl, rfl, rfl, rfl, rfl, rfl, rfl, rfl, rfl, rfl, rfl, rfl, rfl, rfl, rfl, rfl, rfl⟩

/-- Words of these instructions, written from the opcode table and the mode codes of 41_resolver.md R173. -/
theorem test_decode_pointers_and_prefixes :
    decode [0x98#8, 0x0C#8, 0xF8#8, 0x19#8, 0x3A#8] = .ok (.pusha (.dsp24 .a0 0x3A19F8#24)) [] ∧
    decode [0x99#8, 0x03#8] = .ok (.jmpi (.dreg .r3)) [] ∧
    decode [0x9A#8, 0x0A#8, 0xA3#8, 0xC4#8] = .ok (.jsri (.dsp16 .a0 0xC4A3#16)) [] :=
  ⟨rfl, rfl, rfl⟩

/-- Words of these instructions, written from the opcode table and the mode codes of 41_resolver.md R173. -/
theorem test_decode_control_registers :
    decode [0xA4#8, 0x09#8, 0xC5#8] = .ok (.ldcFlg (.dsp8 .a1 0xC5#8)) [] ∧
    decode [0xA4#8, 0x10#8] = .ok (.ldcSp (.dreg .r0)) [] ∧
    decode [0xA4#8, 0x27#8] = .ok (.ldcIntb (.ind .a1)) [] ∧
    decode [0xA5#8, 0x0E#8, 0xF8#8, 0x19#8] = .ok (.stcFlg (.abs16 0x19F8#16)) [] ∧
    decode [0xA5#8, 0x15#8] = .ok (.stcSp (.areg .a1)) [] ∧
    decode [0xA5#8, 0x2C#8, 0xA3#8, 0xC4#8, 0xE5#8] = .ok (.stcIntb (.dsp24 .a0 0xE5C4A3#24)) [] :=
  ⟨rfl, rfl, rfl, rfl, rfl, rfl⟩

/-- Words of these instructions, written from the opcode table and the mode codes of 41_resolver.md R173. -/
theorem test_decode_bits_and_conditions :
    decode [0xA6#8, 0xE3#8] = .ok (.scCnd .lt (.dreg .r3)) [] ∧
    decode [0xB2#8, 0x0A#8, 0xC5#8, 0xE6#8] = .ok (.bset 2#3 (.dsp16 .a0 0xE6C5#16)) [] ∧
    decode [0xBD#8, 0x01#8] = .ok (.bclr 5#3 (.dreg .r1)) [] ∧
    decode [0xC0#8, 0x08#8, 0xE7#8] = .ok (.bnot 0#3 (.dsp8 .a0 0xE7#8)) [] ∧
    decode [0xCB#8, 0x0F#8, 0xF8#8, 0x19#8, 0x3A#8] = .ok (.btst 3#3 (.abs24 0x3A19F8#24)) [] ∧
    decode [0xD6#8, 0xD6#8] = .ok (.bmCnd 6#3 .no (.ind .a0)) [] :=
  ⟨rfl, rfl, rfl, rfl, rfl, rfl⟩

/-- Words of these instructions, written from the opcode table and the mode codes of 41_resolver.md R173. -/
theorem test_decode_jumps :
    decode [0xEF#8, 0x93#8] = .ok (.jCnd .f 0x93#8) [] ∧
    decode [0xF0#8, 0xCA#8, 0xF3#8] = .ok (.jmpW 0xF3CA#16) [] ∧
    decode [0xF1#8, 0x01#8, 0x2A#8, 0x53#8] = .ok (.jmpA 0x532A01#24) [] ∧
    decode [0xF2#8, 0x38#8, 0x61#8] = .ok (.jsrW 0x6138#16) [] ∧
    decode [0xF3#8, 0x6F#8, 0x98#8, 0xC1#8] = .ok (.jsrA 0xC1986F#24) [] ∧
    decode [0xF6#8, 0x14#8] = .ok (.int 0x14#8) [] :=
  ⟨rfl, rfl, rfl, rfl, rfl, rfl⟩

/-! ## Steps. Expected values are those of spec/95_test_vectors.md,
sections 2 to 11, or computed by hand from the rules of the instruction -/

/-- The start the test vectors call "std". -/
def std : State :=
  { State.reset with
    a0 := 0x00002000#32
    a1 := 0x00003000#32
    sp := 0x00008000#32
    r0 := 0x0281#16
    mem := ⟨[(0x2000, 0x78#8), (0x2001, 0x56#8), (0x2002, 0x34#8), (0x2003, 0x12#8), (0x3000, 0x01#8)]⟩ }

/-- A state with these bytes at PC = 0x001000. -/
def placed (bs : List Byte) (s : State) : State := { s with pc := 0x001000#24, mem := storeBytes s.mem 0x001000#24 bs }

/-- One step on these bytes ends in a next state with this property. -/
def shows (bs : List Byte) (s : State) (p : State → Bool) : Bool :=
  match step (placed bs s) with
  | .next t => p t
  | .fault _ => false
  | .refused _ => false

/-- The registers R2R0, R3R1 and FLG before a step on two register operands. -/
def pair (x y : BitVec 32) (flg : BitVec 16) : State :=
  { State.reset with
    r0 := x.extractLsb' 0 16, r2 := x.extractLsb' 16 16, r1 := y.extractLsb' 0 16, r3 := y.extractLsb' 16 16, flg := flg }

/-- R2R0 and FLG after. -/
def leaves (x : BitVec 32) (flg : BitVec 16) (t : State) : Bool := t.r2 ++ t.r0 == x && t.flg == flg

theorem test_mov :
    shows [0x50#8, 0x02#8, 0xAB#8] (pair 0x1234#32 0#32 0#16) (leaves 0xAB34#32 0x0004#16) ∧
    shows [0x51#8, 0x02#8, 0xCD#8, 0xAB#8] (pair 0x22221111#32 0#32 0#16) (leaves 0xABCD1111#32 0x0004#16) ∧
    shows [0x12#8, 0x64#8] std (fun t => t.a0 == 0x12345678#32 && t.cyc == 3) ∧
    shows [0x11#8, 0x67#8] std (fun t => read16 t.mem 0x3000#24 == 0x5678#16 && t.cyc == 4) ∧
    shows [0x10#8, 0x04#8] { std with a0 := 0x12345678#32, r0 := 0xBEEF#16 } (fun t => t.a0 == 0x123400EF#32 && t.flg == 0#16) ∧
    shows [0x52#8, 0x0F#8, 0x00#8, 0x20#8, 0x00#8, 0x78#8, 0x56#8, 0x34#8, 0x12#8] std
      (fun t => t.pc == 0x001009#24 && t.cyc == 10) := by decide

theorem test_addressing :
    shows [0x11#8, 0x60#8] { std with a0 := 0xAB002000#32 } (fun t => t.r0 == 0x5678#16) ∧
    shows [0x11#8, 0xA0#8, 0x00#8, 0x80#8] { std with a0 := 0x9000#32 } (fun t => t.r0 == 0xA011#16 && t.cyc == 5) ∧
    shows [0x11#8, 0xC0#8, 0xFF#8, 0xFF#8, 0xFF#8] { std with a0 := 0x2001#32 } (fun t => t.r0 == 0x5678#16 && t.cyc == 6) ∧
    shows [0x12#8, 0x60#8] { std with a0 := 0x00FFFFFE#32, mem := ⟨[(0, 0x33#8), (1, 0x44#8), (0xFFFFFE, 0x11#8), (0xFFFFFF, 0x22#8)]⟩ }
      (fun t => t.r2 ++ t.r0 == 0x44332211#32) ∧
    shows [0x48#8, 0xA4#8, 0xF0#8, 0xFF#8] { std with a0 := 8#32 } (fun t => t.a0 == 0x00FFFFF8#32 && t.cyc == 4) := by decide

theorem test_extend :
    shows [0x44#8, 0x67#8] std (fun t => read16 t.mem 0x3000#24 == 0x0078#16 && t.cyc == 4) ∧
    shows [0x40#8, 0x67#8] { std with mem := ⟨[(0x2000, 0x80#8)]⟩ } (fun t => read16 t.mem 0x3000#24 == 0xFF80#16) := by decide

theorem test_add_sub :
    shows [0x15#8, 0x10#8] (pair 0x7FFF#32 1#32 0#16) (leaves 0x8000#32 0x000C#16) ∧
    shows [0x16#8, 0x10#8] (pair 0x7FFFFFFF#32 1#32 0#16) (leaves 0x80000000#32 0x000C#16) ∧
    shows [0x14#8, 0x10#8] (pair 0x80#32 0x80#32 0#16) (leaves 0#32 0x000B#16) ∧
    shows [0x19#8, 0x10#8] (pair 0xFFFF#32 0#32 1#16) (leaves 0#32 0x0003#16) ∧
    shows [0x1C#8, 0x10#8] (pair 0x7F#32 0xFF#32 0#16) (leaves 0x80#32 0x000C#16) ∧
    shows [0x1D#8, 0x67#8] std (fun t => read16 t.mem 0x3000#24 == 0xA989#16 && t.flg == 0x0004#16) ∧
    shows [0x21#8, 0x10#8] (pair 0#32 0#32 0#16) (leaves 0xFFFF#32 0x0004#16) ∧
    shows [0x21#8, 0x10#8] (pair 0#32 0#32 1#16) (leaves 0#32 0x0003#16) ∧
    shows [0x22#8, 0x10#8] (pair 0x80000000#32 0#32 0#16) (leaves 0x7FFFFFFF#32 0x0009#16) ∧
    shows [0x25#8, 0x10#8] (pair 0x8000#32 0x7FFF#32 0#16) (leaves 0x8000#32 0x0009#16) := by decide

theorem test_arithmetic_immediate :
    shows [0x54#8, 0x06#8, 0x01#8] std (fun t => read8 t.mem 0x2000#24 == 0x79#8 && t.cyc == 5) ∧
    shows [0x58#8, 0x06#8, 0x01#8] std (fun t => read8 t.mem 0x2000#24 == 0x77#8 && t.flg == 0x0001#16) ∧
    shows [0x56#8, 0x04#8, 0x00#8, 0x00#8, 0x00#8, 0x01#8] { std with a0 := 0xFF000000#32 } (fun t => t.a0 == 0#32 && t.flg == 3#16) ∧
    shows [0x5D#8, 0x00#8, 0x00#8, 0x80#8] (pair 0x8000#32 0#32 0x0710#16) (leaves 0x8000#32 0x0713#16) ∧
    shows [0x70#8, 0x80#8] (pair 0x80#32 0#32 0#16) (leaves 0x78#32 0x0009#16) ∧
    shows [0x71#8, 0x70#8] (pair 0x7FF9#32 0#32 0#16) (leaves 0x8000#32 0x000C#16) ∧
    shows [0x72#8, 0x24#8] { std with a0 := 0x00FFFFFE#32 } (fun t => t.a0 == 0x01000000#32 && t.flg == 0#16) ∧
    shows [0x8C#8, 0x00#8] (pair 0x80#32 0#32 0#16) (leaves 0x80#32 0x000C#16) ∧
    shows [0x8C#8, 0x00#8] (pair 0#32 0#32 0#16) (leaves 0#32 0x0003#16) ∧
    shows [0x8D#8, 0x06#8] std (fun t => read16 t.mem 0x2000#24 == 0xA988#16 && t.cyc == 4) := by decide

theorem test_decimal :
    shows [0x38#8, 0x10#8] (pair 0x19#32 0x28#32 0x0008#16) (leaves 0x47#32 0x0008#16) ∧
    shows [0x39#8, 0x10#8] (pair 0x9999#32 0x0001#32 0#16) (leaves 0#32 0x0003#16) ∧
    shows [0x3C#8, 0x10#8] (pair 0#32 1#32 0#16) (leaves 0x99#32 0x0004#16) ∧
    shows [0x3D#8, 0x67#8] std (fun t => read16 t.mem 0x3000#24 == 0x4323#16 && t.flg == 0#16) ∧
    shows [0x38#8, 0x10#8] (pair 0x0A#32 1#32 0#16) (fun t => t.diagBcd && t.pc == 0x001002#24) := by decide

theorem test_logic :
    shows [0x29#8, 0x10#8] (pair 0xF0F0#32 0x0FF0#32 0x0009#16) (leaves 0x00F0#32 0x0009#16) ∧
    shows [0x2C#8, 0x10#8] (pair 0#32 0#32 0x0009#16) (leaves 0#32 0x000B#16) ∧
    shows [0x32#8, 0x10#8] (pair 0xFFFFFFFF#32 0x7FFFFFFF#32 0#16) (leaves 0x80000000#32 0x0004#16) ∧
    shows [0x35#8, 0x10#8] (pair 0x00F0#32 0x000F#32 0#16) (leaves 0x00F0#32 0x0002#16) ∧
    shows [0x6C#8, 0x00#8, 0x80#8] (pair 0x80#32 0#32 0#16) (leaves 0x80#32 0x0004#16) ∧
    shows [0x88#8, 0x02#8] (pair 0x00FF#32 0#32 0#16) (leaves 0xFFFF#32 0x0004#16) ∧
    shows [0x8A#8, 0x00#8] (pair 0xFFFFFFFF#32 0#32 0#16) (leaves 0#32 0x0002#16) := by decide

theorem test_shift :
    shows [0x74#8, 0x70#8] (pair 0x12FF#32 0#32 0#16) (leaves 0x1200#32 0x0002#16) ∧
    shows [0x76#8, 0xF0#8] (pair 0xABCD1234#32 0#32 0#16) (leaves 0x12340000#32 0#16) ∧
    shows [0x78#8, 0x80#8] (pair 0xFF#32 0#32 0#16) (leaves 0#32 0x0002#16) ∧
    shows [0x79#8, 0x00#8] (pair 0x8001#32 0#32 1#16) (leaves 0x4000#32 0x0001#16) ∧
    shows [0x7C#8, 0x70#8] (pair 0x80#32 0#32 0#16) (leaves 0xFF#32 0x0004#16) ∧
    shows [0x7C#8, 0xF0#8] (pair 0x40#32 0#32 0#16) (leaves 0#32 0x0002#16) ∧
    shows [0x7E#8, 0x30#8] (pair 0x80000000#32 0#32 0#16) (leaves 0xF8000000#32 0x0004#16) := by decide

theorem test_rotate :
    shows [0x80#8, 0x70#8] (pair 0xA5#32 0#32 0#16) (leaves 0xA5#32 0x0004#16) ∧
    shows [0x80#8, 0x80#8] (pair 0xA5#32 0#32 0#16) (leaves 0x4B#32 0#16) ∧
    shows [0x81#8, 0x30#8] (pair 0x1234#32 0#32 0#16) (leaves 0x2341#32 0#16) ∧
    shows [0x84#8, 0x00#8] (pair 1#32 0#32 0#16) (leaves 0x80#32 0x0004#16) ∧
    shows [0x86#8, 0x70#8] (pair 0x12345678#32 0#32 0#16) (leaves 0x78123456#32 0#16) := by decide

theorem test_stack :
    shows [0x92#8, 0x06#8] std (fun t => read32 t.mem 0x7FFC#24 == 0x12345678#32 && t.sp == 0x7FFC#32) ∧
    shows [0x90#8, 0x06#8] std (fun t => read8 t.mem 0x7FFF#24 == 0x78#8 && t.sp == 0x7FFF#32) ∧
    shows [0x96#8, 0x06#8] std (fun t => read32 t.mem 0x2000#24 == 0#32 && t.sp == 0x8004#32) ∧
    shows [0x94#8, 0x06#8] std (fun t => read8 t.mem 0x2000#24 == 0#8 && t.sp == 0x8001#32) ∧
    shows [0x98#8, 0x06#8] std (fun t => read32 t.mem 0x7FFC#24 == 0x2000#32 && t.cyc == 3) := by decide

theorem test_control_registers :
    shows [0xA4#8, 0x00#8] (pair 0xFFFF#32 0#32 0#16) (leaves 0xFFFF#32 0x071F#16) ∧
    shows [0xA4#8, 0x16#8] std (fun t => t.sp == 0x12345678#32 && t.cyc == 3) ∧
    shows [0xA4#8, 0x26#8] std (fun t => t.intb == 0x12345678#32 && t.sp == 0x8000#32) ∧
    shows [0xA5#8, 0x00#8] (pair 0xFFFF#32 0#32 0x0713#16) (leaves 0x0713#32 0x0713#16) ∧
    shows [0xA5#8, 0x10#8] { pair 0xFFFFFFFF#32 0#32 0#16 with sp := 0x12345678#32 } (leaves 0x12345678#32 0#16) := by decide

theorem test_bits :
    shows [0xB3#8, 0x00#8] (pair 0#32 0#32 0#16) (leaves 0x0008#32 0#16) ∧
    shows [0xBF#8, 0x02#8] (pair 0xFFFF#32 0#32 0#16) (leaves 0x7FFF#32 0#16) ∧
    shows [0xC0#8, 0x06#8] { std with mem := ⟨[(0x2000, 0x01#8)]⟩ } (fun t => read8 t.mem 0x2000#24 == 0#8 && t.cyc == 4) ∧
    shows [0xCF#8, 0x00#8] (pair 0x80#32 0#32 0x000B#16) (leaves 0x80#32 0x0009#16) ∧
    shows [0xC8#8, 0x00#8] (pair 0x80#32 0#32 0x0009#16) (leaves 0x80#32 0x000B#16) ∧
    shows [0xD3#8, 0x20#8] (pair 0#32 0#32 0x0002#16) (leaves 0x0008#32 0x0002#16) ∧
    shows [0xD3#8, 0x20#8] (pair 0xFF#32 0#32 0#16) (leaves 0xF7#32 0#16) ∧
    shows [0xA6#8, 0x70#8] (pair 0xFFFF#32 0#32 0#16) (leaves 0x0001#32 0#16) ∧
    shows [0xA6#8, 0xC4#8] { std with a0 := 0x12345678#32 } (fun t => t.a0 == 0x12340001#32) := by decide

theorem test_prefix_arms :
    shows [0x9C#8, 0x00#8] (pair 0x1280#32 0#32 0#16) (fun t => t.sticky == .armed 0x80#24 .addr) ∧
    shows [0x9F#8, 0x00#8] (pair 0x8001#32 0#32 0#16) (fun t => t.sticky == .armed 0x010002#24 .addr) ∧
    shows [0xA1#8, 0x00#8] (pair 0xFFFF#32 0#32 0#16) (fun t => t.sticky == .armed 0x03FFFC#24 .addr) ∧
    shows [0xA2#8, 0x00#8] (pair 0x01FF#32 0#32 0#16) (fun t => t.sticky == .armed 0xFF#24 .bit) := by decide

theorem test_prefix_consumed :
    shows [0x11#8, 0x67#8] { std with sticky := .armed 2#24 .addr } (fun t => read16 t.mem 0x3002#24 == 0x1234#16 && t.sticky == .idle) ∧
    shows [0x11#8, 0x60#8] { std with sticky := .armed 4#24 .bit } (fun t => t.r0 == 0x5678#16 && t.sticky == .idle) ∧
    shows [0xB5#8, 0x06#8] { std with sticky := .armed 10#24 .bit } (fun t => read8 t.mem 0x2001#24 == 0xD6#8) ∧
    shows [0xB0#8, 0x00#8] { pair 0#32 0#32 0#16 with sticky := .armed 10#24 .bit } (leaves 1#32 0#16) ∧
    shows [0x00#8] { std with sticky := .armed 4#24 .addr } (fun t => t.sticky == .armed 4#24 .addr && t.halted) := by decide

theorem test_jumps :
    shows [0xE2#8, 0x10#8] { std with flg := 2#16 } (fun t => t.pc == 0x001012#24 && t.cyc == 2) ∧
    shows [0xE2#8, 0x10#8] std (fun t => t.pc == 0x001002#24 && t.cyc == 2) ∧
    shows [0xE7#8, 0x80#8] std (fun t => t.pc == 0x000F82#24) ∧
    shows [0xF0#8, 0x00#8, 0x80#8] std (fun t => t.pc == 0xFF9003#24 && t.cyc == 3) ∧
    shows [0xF1#8, 0x56#8, 0x34#8, 0x12#8] std (fun t => t.pc == 0x123456#24 && t.cyc == 4) ∧
    shows [0x99#8, 0x06#8] std (fun t => t.pc == 0x345678#24 && t.cyc == 3) := by decide

theorem test_calls :
    shows [0xF2#8, 0x10#8, 0x00#8] std (fun t => read32 t.mem 0x7FFC#24 == 0x1003#32 && t.pc == 0x001013#24) ∧
    shows [0xF3#8, 0x00#8, 0x11#8, 0x00#8] std (fun t => read32 t.mem 0x7FFC#24 == 0x1004#32 && t.pc == 0x001100#24) ∧
    shows [0x9A#8, 0x0E#8, 0x00#8, 0x20#8] { std with sp := 0x2004#32 }
      (fun t => read32 t.mem 0x2000#24 == 0x1004#32 && t.pc == 0x345678#24) ∧
    shows [0xF4#8] { std with sp := 0x2000#32 } (fun t => t.pc == 0x345678#24 && t.sp == 0x2004#32) := by decide

theorem test_int_reit :
    shows [0xF6#8, 0x20#8] { std with intb := 0x1F80#32, flg := 0x0313#16 }
      (fun t => t.pc == 0x345678#24 && t.flg == 0x0303#16 && read16 t.mem 0x7FFE#24 == 0x0313#16) ∧
    shows [0xF5#8] { std with sp := 0x1FFE#32 } (fun t => t.pc == 0x780000#24 && t.flg == 0x0214#16 && t.sp == 0x2004#32) := by
  decide

theorem test_flag_instructions :
    shows [0xDC#8] { std with flg := 0x0300#16 } (fun t => t.flg == 0x0310#16 && t.cyc == 1) ∧
    shows [0xFC#8] { std with flg := 0x071F#16 } (fun t => t.flg == 0x070F#16) ∧
    shows [0xD8#8] std (fun t => t.flg == 0x0001#16) ∧
    shows [0xF9#8] { std with flg := 0x001F#16 } (fun t => t.flg == 0x001D#16) ∧
    shows [0x01#8] { std with sticky := .armed 4#24 .addr } (fun t => t.sticky == .idle && t.pc == 0x001001#24) := by decide

theorem test_fatal :
    shows [0x88#8, 0x10#8] std (fun t => t.fault == some ⟨.illegalOpcode, 0x001000#24, 0x88#8⟩) ∧
    shows [0x8A#8, 0x12#8] std (fun t => t.fault == some ⟨.illegalOpcode, 0x001000#24, 0x8A#8⟩) ∧
    shows [0xA4#8, 0x30#8] std (fun t => t.fault == some ⟨.illegalOpcode, 0x001000#24, 0xA4#8⟩) ∧
    shows [0x12#8, 0x22#8] std (fun t => t.fault == some ⟨.illegalAddressingMode 2#4, 0x001000#24, 0x12#8⟩) ∧
    shows [0x38#8, 0x40#8] std (fun t => t.fault == some ⟨.illegalAddressingMode 4#4, 0x001000#24, 0x38#8⟩) ∧
    shows [0x99#8, 0x04#8] std (fun t => t.fault == some ⟨.illegalAddressingMode 4#4, 0x001000#24, 0x99#8⟩) ∧
    shows [0x48#8, 0x04#8] std (fun t => t.fault == some ⟨.illegalAddressingMode 0#4, 0x001000#24, 0x48#8⟩ && t.halted) ∧
    shows [0xA5#8, 0x13#8] std (fun t => t.pc == 0x001000#24 && t.cyc == 0 && t.halted) := by decide

theorem test_interrupt_acceptance :
    shows [0x01#8] { std with flg := 0x0310#16, irq := [some ⟨.l4, 5#8⟩], intb := 0x1FEC#32 }
      (fun t => t.pc == 0x345678#24 && t.flg == 0x0400#16 && t.cyc == 1 && t.acks == [⟨.l4, 5#8⟩]) ∧
    shows [0x01#8] { std with flg := 0x0310#16, irq := [some ⟨.l3, 5#8⟩] } (fun t => t.pc == 0x001001#24 && t.acks == []) ∧
    shows [0xDC#8] { std with irq := [some ⟨.l1, 5#8⟩] } (fun t => t.flg == 0x0100#16 && read16 t.mem 0x7FFE#24 == 0x0010#16) ∧
    shows [0x9C#8, 0x00#8] { std with flg := 0x0010#16, irq := [some ⟨.l1, 5#8⟩] } (fun t => t.pc == 0x001002#24 && t.acks == []) := by
  decide

theorem test_register_port :
    (portRead 0x00 .long (pair 0xABCD1234#32 0#32 0#16)).1 = 0xABCD1234#32 ∧
    (portRead 0x01 .byte (pair 0xABCD1234#32 0#32 0#16)).1 = 0x12#32 ∧
    (portWrite 0x02 .byte 0xEE#32 (pair 0xABCD1234#32 0#32 0#16)).r2 = 0xABEE#16 ∧
    (portWrite 0x18 .long 0xFFFF0011#32 std).flg = 0x0011#16 ∧
    (portWrite 0x19 .byte 0xFF#32 { std with flg := 0x0302#16 }).flg = 0x0702#16 ∧
    (portWrite 0x1C .long 0xAA002000#32 std).pc = 0x002000#24 ∧
    (portRead 0x0E .long std).2.diagMcra = true := by decide

/-- An access that straddles 0x1F/0x20 sets DIAG.mcra and reads STATUS with it (notes/assumptions/19.md); a read of STATUS
alone does not. -/
theorem test_register_port_status :
    (portRead 0x1F .word std).1 = 0x0200#32 ∧ (portRead 0x20 .word std).1 = 0#32 ∧
    (portRead 0x20 .word { std with diagMcra := true, sticky := .armed 7#24 .bit }).1 = 0x001A#32 := by decide

/-- The three outcomes of `dispatch()`: NOP, a byte with no descriptor, MOV.L R2,A0 (60_exceptions.md R406), a halted engine. -/
theorem test_dispatch_outcomes :
    (∃ t, dispatch (placed [0x01#8] std) = .next (t, .ok)) ∧
    (∃ t, dispatch (placed [0x00#8] std) = .next (t, .fault .illegalOpcode)) ∧
    (∃ t, dispatch (placed [0x12#8, 0x24#8] std) = .next (t, .fault (.illegalAddressingMode 2#4))) ∧
    dispatch { std with halted := true } = .next ({ std with halted := true }, .halted) :=
  ⟨⟨_, rfl⟩, ⟨_, rfl⟩, ⟨_, rfl⟩, rfl⟩

theorem test_reset :
    (engineReset { std with mem := ⟨[(0xFFFFFD, 0x10#8), (0xFFFFFF, 0xAA#8)]⟩, cyc := 77 }).pc = 0x001000#24 ∧
    (engineReset { std with cyc := 77 }).cyc = 77 ∧ (engineReset { std with diagBcd := true }).diagBcd = false := by decide

/-- The instruction placed by `withFetchWord` is the one the next step runs. -/
theorem test_withFetchWord :
    (match step (State.reset.withFetchWord 8 0xD8) with | .next t => t.flg == 1#16 | _ => false) = true ∧
    decodeTableWord 16 0x0254 = some (.addBImm (.dreg .r2) 0x00#8) := by decide

/-! ## Witnesses: for each obligation with hypotheses a concrete case that meets them all, for each clause, at the ends of
its range -/

/-- Operands of the witnesses: a data register, an address register (promoted at 8 bits), memory. -/
def corners : List Opnd := [.dreg .r1, .areg .a0, .abs24 0xFFFFFF#24]

theorem witness_IllegalOpcodeByte :
    ∀ b ∈ [0x00#8, 0x02#8, 0x0F#8, 0xF7#8, 0xFF#8], (placed [b] std).halted = false ∧
      inRanges illegalRanges (read8 (placed [b] std).mem (placed [b] std).pc) = true := by decide

/-- A reserved high nibble, at its lowest value at both ends of the ranges. -/
theorem witness_ReservedModeByte_nibble :
    (placed [0x50#8, 0x10#8] std).halted = false ∧ inRanges reservedNibbleRanges (read8 (placed [0x50#8, 0x10#8] std).mem (placed [0x50#8, 0x10#8] std).pc) = true ∧
      16 ≤ (read8 (placed [0x50#8, 0x10#8] std).mem ((placed [0x50#8, 0x10#8] std).pc + 1#24)).toNat ∧
    (placed [0xCF#8, 0x14#8] std).halted = false ∧ inRanges reservedNibbleRanges (read8 (placed [0xCF#8, 0x14#8] std).mem (placed [0xCF#8, 0x14#8] std).pc) = true ∧
      16 ≤ (read8 (placed [0xCF#8, 0x14#8] std).mem ((placed [0xCF#8, 0x14#8] std).pc + 1#24)).toNat := by decide

/-- A reserved control-register selector. -/
theorem witness_ReservedModeByte_selector :
    (placed [0xA4#8, 0x30#8] std).halted = false ∧ inRanges [(0xA4, 0xA5)] (read8 (placed [0xA4#8, 0x30#8] std).mem (placed [0xA4#8, 0x30#8] std).pc) = true ∧
      48 ≤ (read8 (placed [0xA4#8, 0x30#8] std).mem ((placed [0xA4#8, 0x30#8] std).pc + 1#24)).toNat ∧
    (placed [0xA5#8, 0x33#8] std).halted = false ∧ inRanges [(0xA4, 0xA5)] (read8 (placed [0xA5#8, 0x33#8] std).mem (placed [0xA5#8, 0x33#8] std).pc) = true ∧
      48 ≤ (read8 (placed [0xA5#8, 0x33#8] std).mem ((placed [0xA5#8, 0x33#8] std).pc + 1#24)).toNat := by decide

theorem witness_StepRunsDecoded :
    ∃ i rest t, (placed [0x15#8, 0x10#8] std).halted = false ∧
      decode (fetchWindow (placed [0x15#8, 0x10#8] std)) = .ok i rest ∧ exec i (placed [0x15#8, 0x10#8] std) = .next t :=
  ⟨.addW (.dreg .r1) (.dreg .r0), _, _, rfl, rfl, rfl⟩

theorem witness_StepRunsStoredBytes :
    (placed [0x15#8, 0x10#8] std).halted = false ∧
      (∀ k (h : k < (encode (.addW (.dreg .r1) (.dreg .r0))).length),
        read8 (placed [0x15#8, 0x10#8] std).mem ((placed [0x15#8, 0x10#8] std).pc + BitVec.ofNat 24 k) =
          (encode (.addW (.dreg .r1) (.dreg .r0)))[k]) ∧
      ∃ t, exec (.addW (.dreg .r1) (.dreg .r0)) (placed [0x15#8, 0x10#8] std) = .next t :=
  ⟨rfl, by decide, _, rfl⟩

/-- A halted engine, and running ones that return `ok` and `fault`. -/
theorem witness_StepAnswersNext :
    { std with halted := true }.halted = true ∧ (placed [0x01#8] std).halted = false ∧
    (placed [0x00#8] std).halted = false := by decide

theorem witness_HaltedDoesNothing : { std with halted := true }.halted = true := rfl

theorem witness_StepKeepsInv : (placed [0x15#8, 0x10#8] std).Inv = true ∧ ∃ t, step (placed [0x15#8, 0x10#8] std) = .next t :=
  ⟨by decide, _, rfl⟩

/-- Every clause of the boundary check; the level equal to IPL and the next higher one. -/
theorem witness_BoundaryCheck :
    { std with inhibit := true }.inhibit = true ∧ std.inhibit = false ∧
    (let s := { std with flg := 0x0610#16, irq := [some ⟨.l7, 0#8⟩] }
     s.irq = some ⟨.l7, 0#8⟩ :: [] ∧ getFlag .i s.flg = true ∧ (getIpl s.flg).toNat < levelNumber .l7) ∧
    (let s := { std with flg := 0x0710#16, irq := [some ⟨.l7, 0#8⟩] }
     s.irq = some ⟨.l7, 0#8⟩ :: [] ∧ levelNumber .l7 ≤ (getIpl s.flg).toNat) ∧
    (let s := { std with irq := [some ⟨.l1, 0#8⟩] }
     s.irq = some ⟨.l1, 0#8⟩ :: [] ∧ getFlag .i s.flg = false) ∧
    { std with irq := [none] }.irq = none :: [] ∧ std.irq = [] := by decide

theorem witness_InterruptEntry :
    (let s := { std with flg := 0x0010#16, irq := [some ⟨.l1, 255#8⟩] }
     s.mem.wf = true ∧ s.inhibit = false ∧ s.irq = some ⟨.l1, 255#8⟩ :: [] ∧ getFlag .i s.flg = true ∧
       (getIpl s.flg).toNat < levelNumber .l1) ∧
    (let s := { std with flg := 0x0610#16, sp := 0x00000003#32, irq := [some ⟨.l7, 0#8⟩, none] }
     s.mem.wf = true ∧ s.inhibit = false ∧ s.irq = some ⟨.l7, 0#8⟩ :: [none] ∧ getFlag .i s.flg = true ∧
       (getIpl s.flg).toNat < levelNumber .l7) := by decide

theorem witness_StickyTransitions :
    (∃ rest, (placed [0x01#8] std).halted = false ∧ (placed [0x01#8] std).inhibit = false ∧
      decode (fetchWindow (placed [0x01#8] std)) = .ok .nop rest ∧ Instr.nop.wellFormed = true ∧ isPrefix .nop = false) ∧
    ∃ rest, (placed [0x9C#8, 0x00#8] std).halted = false ∧ (placed [0x9C#8, 0x00#8] std).inhibit = false ∧
      decode (fetchWindow (placed [0x9C#8, 0x00#8] std)) = .ok (.indexbB (.dreg .r0)) rest ∧
      (Instr.indexbB (.dreg .r0)).wellFormed = true ∧ isPrefix (.indexbB (.dreg .r0)) = true :=
  ⟨⟨_, rfl, rfl, rfl, rfl, rfl⟩, _, rfl, rfl, rfl, rfl, rfl⟩

/-- A plain instruction, a prefix, and one that names a target. -/
theorem witness_WellFormedCompletes :
    ((Instr.movW (.dsp24 .a0 0xFFFFFF#24) (.areg .a1)).wellFormed = true ∧
      namesTarget (.movW (.dsp24 .a0 0xFFFFFF#24) (.areg .a1)) = false ∧
      isPrefix (.movW (.dsp24 .a0 0xFFFFFF#24) (.areg .a1)) = false) ∧
    ((Instr.indexlW (.ind .a0)).wellFormed = true ∧ isPrefix (.indexlW (.ind .a0)) = true) ∧
    (Instr.jmpi (.ind .a0)).wellFormed = true ∧ namesTarget (.jmpi (.ind .a0)) = true := by decide

theorem witness_IllFormedHalts :
    (Instr.movL (.dreg .r2) (.dreg .r3)).firstIllegalMode = some 2#4 ∧
    (Instr.bset 7#3 (.areg .a1)).firstIllegalMode = some 5#4 := by decide

theorem witness_FlagsUntouched : leavesFlags .nop = true ∧ ∃ t, exec .nop std = .next t := ⟨rfl, _, rfl⟩

theorem witness_ControlStateWriters :
    (∀ o, Instr.nop ≠ .ldcIntb o) ∧ { std with diagBcd := true }.diagBcd = true ∧
      ∃ t, exec .nop { std with diagBcd := true } = .next t :=
  ⟨fun _ => Instr.noConfusion, rfl, _, rfl⟩

/-- Every byte number of every width, and a byte outside, where the access wraps at the top of memory. -/
theorem witness_MemoryLittleEndian :
    std.mem.wf = true ∧ 0 < Width.byte.bytes ∧ 1 < Width.word.bytes ∧ 3 < Width.long.bytes ∧
    0x000003#24 ∉ span 0xFFFFFF#24 Width.long.bytes ∧ 0xFFFFFE#24 ∉ span 0xFFFFFF#24 Width.long.bytes := by decide

/-- Every memory mode has an effective address, with and without an armed index. -/
theorem witness_EffectiveAddress :
    ∀ o ∈ [Opnd.ind .a0, .dsp8 .a1 0x80#8, .dsp16 .a0 0x8000#16, .dsp24 .a1 0xFFFFFF#24, .abs16 0xFFFF#16, .abs24 0#24],
      (resolvePtr o lmPtr std).isSome = true ∧ (resolvePtr o lmPtr { std with sticky := .armed 0xFFFFFF#24 .addr }).isSome = true := by
  decide

theorem witness_BitOperandPlace :
    (∀ r ∈ [DReg.r0, .r1, .r2, .r3], (Opnd.dreg r).isAReg = false) ∧
      ∃ ea, resolvePtr (.ind .a0) lmPtr { std with sticky := .armed 0xFFFFFF#24 .bit } = some ea :=
  ⟨by decide, _, rfl⟩

theorem witness_AccessorRoundTrip : std.mem.wf = true ∧ (0xFF#32 : Val).toNat < 2 ^ (Acc.mem 0xFFFFFF#24 .byte).width.bits ∧
    (0xFFFFFFFF#32 : Val).toNat < 2 ^ (Acc.reg .r3r1).width.bits := by decide

/-- Both clauses, at the largest operands, with a carry-in and a borrow-in. -/
theorem witness_FlagTablesTextbook :
    ((0xFF#32 : Val).toNat < 2 ^ Width.byte.bits ∧ 1 ≤ 1 ∧
      (0xFF#32 : Val).toNat = ((0xFF#32 : Val).toNat + (0xFF#32 : Val).toNat + 1) % 2 ^ Width.byte.bits) ∧
    ((0x00#32 : Val).toNat < 2 ^ Width.byte.bits ∧
      ((0x00#32 : Val).toNat : Int) = (((0x00#32 : Val).toNat : Int) - (0xFF#32 : Val).toNat - 1) % 2 ^ Width.byte.bits) := by
  decide

/-- AddAdcResult, SubSbbResult, CmpFlags, LogicResult, TstFlags, MovResult: their two-operand forms, at every width. -/
theorem witness_two_operands :
    std.mem.wf = true ∧ ∀ w ∈ [Width.byte, .word, .long], ∀ x ∈ [Opnd.areg .a0, .abs24 0xFFFFFF#24], ∀ y ∈ [Opnd.dreg .r0, .areg .a0],
      (addOf w x y).wellFormed = true ∧ (adcOf w x y).wellFormed = true ∧ (subOf w x y).wellFormed = true ∧
      (sbbOf w x y).wellFormed = true ∧ (cmpOf w x y).wellFormed = true ∧ (andOf w x y).wellFormed = true ∧
      (orOf w x y).wellFormed = true ∧ (xorOf w x y).wellFormed = true ∧ (tstOf w x y).wellFormed = true ∧
      (movOf w x y).wellFormed = true := by decide

/-- CmpFlags, AddSubImmediateResult, LogicResult, TstFlags, MovResult: their immediate forms; AddqNegResult, NotResult. -/
theorem witness_one_operand_and_constant :
    std.mem.wf = true ∧ ∀ w ∈ [Width.byte, .word, .long], ∀ y ∈ corners,
      (addImmOf w y (BitVec.allOnes _)).wellFormed = true ∧ (subImmOf w y (BitVec.allOnes _)).wellFormed = true ∧
      (cmpImmOf w y (BitVec.allOnes _)).wellFormed = true ∧ (andImmOf w y (BitVec.allOnes _)).wellFormed = true ∧
      (orImmOf w y (BitVec.allOnes _)).wellFormed = true ∧ (xorImmOf w y (BitVec.allOnes _)).wellFormed = true ∧
      (tstImmOf w y (BitVec.allOnes _)).wellFormed = true ∧ (movImmOf w y (BitVec.allOnes _)).wellFormed = true ∧
      (addqOf w 8#4 y).wellFormed = true ∧ (negOf w y).wellFormed = true ∧ (notOf w y).wellFormed = true := by decide

/-- DecimalValidDigits: both operands at 9999. DecimalOtherDigits: a digit above 9 in the destination. -/
theorem witness_decimal :
    (let s := pair 0x9999#32 0x9999#32 0#16
     s.mem.wf = true ∧ resolve (.dreg .r1) .word (lmValue .word) .forbid s = some (.reg .r1) ∧
       resolve (.dreg .r0) .word (lmValue .word) .forbid s = some (.reg .r0) ∧
       (∀ i, i < Width.word.bits / 4 → ((Acc.reg .r0).get s).toNat / 16 ^ i % 16 ≤ 9) ∧
       ∀ i, i < Width.word.bits / 4 → ((Acc.reg .r1).get s).toNat / 16 ^ i % 16 ≤ 9) ∧
    (let s := pair 0x000A#32 0x0009#32 0#16
     s.mem.wf = true ∧ resolve (.dreg .r1) .byte (lmValue .byte) .forbid s = some (.reg .r1l) ∧
       resolve (.dreg .r0) .byte (lmValue .byte) .forbid s = some (.reg .r0l) ∧
       ¬ ∀ i, i < Width.byte.bits / 4 → ((Acc.reg .r0l).get s).toNat / 16 ^ i % 16 ≤ 9) := by decide

/-- ShiftResult and RotateResult, at both ends of the count. -/
theorem witness_shifts :
    std.mem.wf = true ∧ ∀ w ∈ [Width.byte, .word, .long], ∀ n ∈ [0#4, 15#4], ∀ y ∈ [Opnd.dreg .r1, .ind .a0],
      (shlOf w n y).wellFormed = true ∧ (rolOf w n y).wellFormed = true := by decide

/-- ExtendResult and LeaResult. -/
theorem witness_extends_and_lea :
    std.mem.wf = true ∧ ∀ x ∈ [Opnd.dreg .r3, .ind .a0],
      (Instr.extsB x (.areg .a0)).wellFormed = true ∧ (Instr.extsW x (.areg .a0)).wellFormed = true ∧
      (Instr.extzB x (.areg .a0)).wellFormed = true ∧ (Instr.extzW x (.areg .a0)).wellFormed = true ∧
      (Instr.lea (.abs24 0xFFFFFF#24) (.areg .a0)).wellFormed = true ∧ (Instr.lea (.ind .a0) (.ind .a1)).wellFormed = true := by
  decide

/-- PushResult, PopResult, LdcResult, StcResult. -/
theorem witness_stack_and_control_registers :
    std.mem.wf = true ∧ ∀ y ∈ [Opnd.dreg .r1, .ind .a0],
      (∀ w ∈ [Width.byte, .word, .long], (pushOf w y).wellFormed = true ∧ (popOf w y).wellFormed = true) ∧
      (Instr.pusha (.ind .a0)).wellFormed = true ∧ (Instr.ldcFlg y).wellFormed = true ∧ (Instr.ldcSp y).wellFormed = true ∧
      (Instr.ldcIntb y).wellFormed = true ∧ (Instr.stcFlg y).wellFormed = true ∧ (Instr.stcSp y).wellFormed = true ∧
      (Instr.stcIntb y).wellFormed = true := by decide

theorem witness_BitInstructions :
    std.mem.wf = true ∧ (Instr.bset 7#3 (.dreg .r3)).wellFormed = true ∧ (Instr.bset 0#3 (.ind .a0)).wellFormed = true := by decide

theorem witness_ScCndResult : std.mem.wf = true := by decide

/-- JumpIndirect, CallsPushReturnAddress, SoftwareInterrupt. -/
theorem witness_jumps_and_calls :
    std.mem.wf = true ∧ (Instr.jmpi (.ind .a0)).wellFormed = true ∧ (Instr.jsri (.abs24 0xFFFFFE#24)).wellFormed = true := by decide

theorem witness_CallThenReturn :
    std.mem.wf = true ∧ (Instr.jsrA 0x001100#24).wellFormed = true ∧ (∃ target, Instr.jsrA 0x001100#24 = .jsrA target) ∧
      ∃ t, exec (.jsrA 0x001100#24) std = .next t := ⟨by decide, rfl, ⟨_, rfl⟩, _, rfl⟩

/-- A state with every writable bit of FLG set, and one whose boundary accepts a request of the next level above IPL. -/
theorem witness_ReturnUndoesEntry :
    { std with flg := 0x071F#16 }.mem.wf = true ∧ { std with flg := 0x071F#16 }.flg &&& 0x071F#16 = 0x071F#16 ∧
    (let s := { std with flg := 0x0610#16, irq := [some ⟨.l7, 0#8⟩] }
     s.mem.wf = true ∧ s.flg &&& 0x071F#16 = s.flg ∧ s.inhibit = false ∧ s.irq = some ⟨.l7, 0#8⟩ :: [] ∧
      getFlag .i s.flg = true ∧ (getIpl s.flg).toNat < levelNumber .l7) := by decide

theorem witness_NopRuns : (placed [0x01#8] std).halted = false ∧ read8 (placed [0x01#8] std).mem (placed [0x01#8] std).pc = 0x01#8 := by
  decide

/-- The last conforming places of the general registers, a FLG with no reserved bit, misaligned accesses at both ends of the
control items. -/
theorem witness_RegisterPort :
    0x0F + Width.byte.bytes ≤ 0x10 ∧ 0x0C + Width.long.bytes ≤ 0x10 ∧
    std.flg &&& 0x071F#16 = std.flg ∧
    Claims.Misaligned 0x10 Width.word.bytes ∧ Claims.Misaligned 0x1F Width.byte.bytes ∧
    Claims.Misaligned 0x0E Width.long.bytes ∧ Claims.Misaligned 0x1F Width.word.bytes := by
  unfold Claims.Misaligned
  decide

/-- Accesses that are not misaligned, at both ends of the control items and among them. -/
theorem witness_RegisterPort_conforming :
    ¬ Claims.Misaligned 0x0F Width.byte.bytes ∧ ¬ Claims.Misaligned 0x18 Width.long.bytes ∧
    ¬ Claims.Misaligned 0x1A Width.word.bytes ∧ ¬ Claims.Misaligned 0x20 Width.byte.bytes := by
  unfold Claims.Misaligned
  decide

/-- Rows of the view table, and where promotion is forbidden an address register at width 16 and a data register. -/
theorem witness_ResolverAdmits :
    (Opnd.areg .a1, Width.long, View.a1) ∈ Claims.registerViews ∧ (Opnd.dreg .r3, Width.byte, View.r1h) ∈ Claims.registerViews ∧
    ((Opnd.areg .a0).isAReg = true → Width.word ≠ .byte) ∧ (Opnd.dreg .r3).isAReg = false := by decide

end Sys2Proof.Tests
end

section
/-! The effective addresses as integers reduced modulo `2^24`, the round trip of every accessor, and the two statements on
the resolver (41_resolver.md R173, R184, R187). -/

namespace Sys2Proof.Machine

open Sys2Proof

/-! ## Sums of addresses as integers -/

theorem toNat_ofInt_addr (n : Int) : ((BitVec.ofInt 24 n).toNat : Int) = n % 2 ^ 24 := by
  rw [BitVec.toNat_ofInt]
  exact Int.toNat_of_nonneg (Int.emod_nonneg _ (by decide))

/-- An address register as an integer, before its reduction to the 24 bits of `An` (R173). -/
def baseInt (a : AReg) (s : State) : Int :=
  match a with
  | .a0 => s.a0.toNat
  | .a1 => s.a1.toNat

/-- `idx` (R179) as an integer. -/
def indexInt (s : State) : Int :=
  match s.sticky with
  | .armed v .addr => v.toNat
  | .armed _ .bit => 0
  | .idle => 0

theorem baseAddr_eq_ofInt (a : AReg) (s : State) : baseAddr a s = BitVec.ofInt 24 (baseInt a s) := by
  cases a <;> rfl

theorem index_eq_ofInt (s : State) : index s = BitVec.ofInt 24 (indexInt s) := by
  unfold index indexInt
  cases s.sticky with
  | idle => rfl
  | armed v kind =>
    cases kind with
    | addr => simp only [BitVec.ofInt_natCast, BitVec.ofNat_toNat, BitVec.setWidth_eq]
    | bit => rfl

/-- EA before its reduction modulo `2^24` (R173): the sum of base, displacement and index, with `dsp:8` and `dsp:16`
signed; 0 for the register modes, which have none. -/
def effSum (o : Opnd) (s : State) : Int :=
  match o with
  | .dreg _ => 0
  | .areg _ => 0
  | .ind a => baseInt a s + indexInt s
  | .dsp8 a d => baseInt a s + d.toInt + indexInt s
  | .dsp16 a d => baseInt a s + d.toInt + indexInt s
  | .dsp24 a d => baseInt a s + d.toNat + indexInt s
  | .abs16 d => d.toNat + indexInt s
  | .abs24 d => d.toNat + indexInt s

/-- In the memory modes, EA is the exact sum brought to 24 bits: `ofInt` takes sums of integers to sums of addresses, and
sign extension is `ofInt` of the signed value. -/
theorem effAddr_eq_ofInt {o : Opnd} {s : State} {ea : Addr} (h : effAddr o s = some ea) :
    ea = BitVec.ofInt 24 (effSum o s) := by
  cases o with
  | dreg r => nomatch h
  | areg a => nomatch h
  | _ =>
    obtain rfl := Option.some.inj h
    simp only [effSum, BitVec.ofInt_add, baseAddr_eq_ofInt, index_eq_ofInt, BitVec.signExtend, BitVec.ofInt_natCast,
      BitVec.ofNat_toNat, BitVec.setWidth_eq]

theorem toNat_of_effAddr {o : Opnd} {s : State} {ea : Addr} (h : effAddr o s = some ea) :
    (ea.toNat : Int) = effSum o s % 2 ^ 24 := by
  rw [effAddr_eq_ofInt h, toNat_ofInt_addr]

/-! ## The accessor and the pointer of a memory mode -/

theorem resolvePtr_eq_some_iff {o : Opnd} {s : State} {ea : Addr} :
    resolvePtr o lmPtr s = some ea ↔ effAddr o s = some ea := by
  rw [resolvePtr, legal_lmPtr]
  cases o <;> simp [Opnd.isMem, effAddr]

theorem isMem_of_effAddr {o : Opnd} {s : State} {ea : Addr} (h : effAddr o s = some ea) : o.isMem = true := by
  cases o with
  | dreg r => nomatch h
  | areg a => nomatch h
  | _ => rfl

/-- The value mask of every width admits the memory modes. -/
theorem legal_lmValue_of_isMem {o : Opnd} (h : o.isMem = true) (w : Width) : legal (lmValue w) o = true := by
  cases w with
  | byte => exact legal_lmAll o
  | word => exact legal_lmAll o
  | long =>
    rw [lmValue, legal_lmL]
    cases o <;> simp_all [Opnd.isMem, Opnd.isR2R3]

/-- Only the address registers are ever promoted. -/
theorem promoted_of_isMem {o : Opnd} (h : o.isMem = true) (w : Width) (p : Promote) : promoted o w p = some w := by
  cases o with
  | dreg r => nomatch h
  | areg a => nomatch h
  | _ => rfl

/-- The value accessor of a memory mode is the memory access at the mode's EA, at the nominal width. -/
theorem resolve_of_effAddr {o : Opnd} {s : State} {ea : Addr} (h : effAddr o s = some ea) (w : Width) (p : Promote) :
    resolve o w (lmValue w) p s = some (.mem ea w) := by
  have hmem := isMem_of_effAddr h
  simp only [resolve, legal_lmValue_of_isMem hmem, promoted_of_isMem hmem, h, if_true]

/-- Settles O22: accessor and pointer both take EA from `effAddr`, whose value is the integer sum of R173 brought to 24
bits. -/
theorem effectiveAddress : Obligations.EffectiveAddress := by
  intro s o ea w p h
  have hea := resolvePtr_eq_some_iff.1 h
  refine ⟨resolve_of_effAddr hea w p, ?_⟩
  have hsum := toNat_of_effAddr hea
  cases o with
  | dreg r => nomatch hea
  | areg a => nomatch hea
  | _ => exact hsum

/-! ## Setting what was got -/

/-- A store of the byte an address already reads as leaves a list in canonical form as it is. -/
theorem store_lookup {l : List Host.Cell} (h : Rising l) (hl : ∀ c ∈ l, c.2 ≠ Config.unlistedByte) (a : Nat) :
    store l a (lookup l a) = l := by
  induction l with
  | nil => rfl
  | cons c t ih =>
    obtain ⟨hc, ht⟩ := List.pairwise_cons.1 h
    rcases Nat.lt_trichotomy c.1 a with hlt | rfl | hgt
    · have hne : c.1 ≠ a := Nat.ne_of_lt hlt
      simp only [store, lookup, hlt, hne, if_true, if_false, ih ht fun d hd => hl d (List.mem_cons_of_mem c hd)]
    · simp [store, lookup, hl c]
    · have hne : c.1 ≠ a := Nat.ne_of_gt hgt
      have hrest : lookup t a = Config.unlistedByte := lookup_of_lt fun d hd => Nat.lt_trans hgt (hc d hd)
      simp only [store, lookup, Nat.lt_asymm hgt, hne, hrest, if_true, if_false]

theorem write8_read8 {m : Memory} (h : m.wf = true) (a : Addr) : write8 m a (read8 m a) = m := by
  obtain ⟨hrise, hcells⟩ := (Memory.wf_iff m).1 h
  rw [write8, read8, store_lookup hrise fun c hc => (hcells c hc).2]

theorem write16_read16 {m : Memory} (h : m.wf = true) (a : Addr) : write16 m a (read16 m a) = m := by
  rw [write16, read16, extract_append_lo, extract_append_hi, write8_read8 h, write8_read8 h]

theorem read32_eq_append (m : Memory) (a : Addr) : read32 m a = read16 m (a + 2#24) ++ read16 m a := by
  have h3 : a + 2#24 + 1#24 = a + 3#24 := by bv_omega
  rw [read16, h3, read32, BitVec.append_assoc]
  rfl

theorem write32_read32 {m : Memory} (h : m.wf = true) (a : Addr) : write32 m a (read32 m a) = m := by
  rw [write32, read32_eq_append, extract_append_lo, extract_append_hi, write16_read16 h, write16_read16 h]

/-- A data write of what a data read of the same width gave changes nothing in canonical memory. -/
theorem memWrite_memRead {m : Memory} (h : m.wf = true) (w : Width) (a : Addr) : memWrite w m a (memRead w m a) = m := by
  cases w with
  | byte => rw [memWrite, memRead, BitVec.setWidth_setWidth_of_le _ (by decide), BitVec.setWidth_eq, write8_read8 h]
  | word => rw [memWrite, memRead, BitVec.setWidth_setWidth_of_le _ (by decide), BitVec.setWidth_eq, write16_read16 h]
  | long => exact write32_read32 h a

/-- A field zero-extended into the carrier and cut out again. -/
theorem extract_carrier {n : Nat} (x : BitVec n) (h : n ≤ 32) : (x.setWidth 32).extractLsb' 0 n = x := by
  rw [BitVec.extractLsb'_setWidth_of_le (by omega), BitVec.extractLsb'_eq_self]

/-- A view written with what it reads changes no register: its field goes back beside the field it leaves alone. -/
theorem View.write_read (v : View) (s : State) : v.write (v.read s) s = s := by
  have carrier8 := fun x : BitVec 8 => extract_carrier x (by decide)
  have carrier16 := fun x : BitVec 16 => extract_carrier x (by decide)
  cases v
  case r0l | r0h | r1l | r1h => simp only [View.write, View.read, carrier8, halves_append]
  case r0 | r1 | r2 | r3 => simp only [View.write, View.read, carrier16]
  case a0w | a1w => simp only [View.write, View.read, carrier16, extract_halves]
  case r2r0 | r3r1 => simp only [View.write, View.read, extract_append_lo, extract_append_hi]
  case a0 | a1 => rfl

/-- R187, first half: setting what was got is a no-op. -/
theorem Acc.set_get {s : State} (h : s.mem.wf = true) (x : Acc) : x.set (x.get s) s = s := by
  cases x with
  | reg v => exact View.write_read v s
  | mem ea w => rw [Acc.set, Acc.get, memWrite_memRead h]

/-- R187, second half: a value of the accessor's width is got back as it was set. -/
theorem Acc.get_set_of_lt {s : State} (h : s.mem.wf = true) (x : Acc) {v : Val} (hv : v.toNat < 2 ^ x.width.bits) :
    x.get (x.set v s) = v := by
  rw [Acc.get_set h, trunc_of_lt hv]

/-! ## Wider views from narrower ones -/

/-- Two fields put together, as numbers. -/
theorem toNat_append_eq_add {n m : Nat} (hi : BitVec n) (lo : BitVec m) :
    (hi ++ lo).toNat = lo.toNat + 2 ^ m * hi.toNat := by
  rw [BitVec.toNat_append, ← Nat.shiftLeft_add_eq_or_of_lt lo.isLt, Nat.shiftLeft_eq, Nat.mul_comm, Nat.add_comm]

theorem toNat_carrier_halves (x : BitVec 16) :
    (x.setWidth 32).toNat =
      ((x.extractLsb' 0 8).setWidth 32).toNat + 2 ^ 8 * ((x.extractLsb' 8 8).setWidth 32).toNat := by
  have carrier8 := fun y : BitVec 8 => BitVec.toNat_setWidth_of_le (b := y) (show 8 ≤ 32 by decide)
  rw [carrier8, carrier8, ← toNat_append_eq_add, halves_append, BitVec.toNat_setWidth_of_le (by decide)]

theorem toNat_append_carrier (hi lo : BitVec 16) :
    (hi ++ lo).toNat = (lo.setWidth 32).toNat + 2 ^ 16 * (hi.setWidth 32).toNat := by
  have carrier16 := fun y : BitVec 16 => BitVec.toNat_setWidth_of_le (b := y) (show 16 ≤ 32 by decide)
  rw [toNat_append_eq_add, carrier16, carrier16]

theorem toNat_low_half (x : BitVec 32) : ((x.extractLsb' 0 16).setWidth 32).toNat = x.toNat % 2 ^ 16 := by
  rw [BitVec.toNat_setWidth_of_le (by decide), BitVec.extractLsb'_toNat, Nat.shiftRight_zero]

/-- Settles O24: the round trip for registers and for memory, and the composition of the views by the registers' halves. -/
theorem accessorRoundTrip : Obligations.AccessorRoundTrip :=
  ⟨fun x _ h => ⟨Acc.set_get h x, fun _ hv => Acc.get_set_of_lt h x hv⟩,
    fun s => ⟨toNat_carrier_halves s.r0, toNat_carrier_halves s.r1, toNat_append_carrier s.r2 s.r0,
      toNat_append_carrier s.r3 s.r1, toNat_low_half s.a0, toNat_low_half s.a1⟩⟩

end Sys2Proof.Machine
end

section
/-! Jumps, RTS and NOP (48_control_system.md R350 to R353, R358, R363): the condition table read as the formulas of R213,
transfer targets as integers reduced modulo `2^24`, and the end of an instruction as `Ends` and `Frame` say it. -/

namespace Sys2Proof.Machine

open Sys2Proof Sys2Proof.Claims

/-! ## The condition table -/

/-- FLG bits 4:0, the index into CONDTAB (R211), hold all five single-bit flags. -/
theorem getFlag_and_low (f : Flag) (flg : BitVec 16) : getFlag f (flg &&& 0x001F#16) = getFlag f flg := by
  have hmask : (0x001F#16).getLsbD f.bit = true := by cases f <;> rfl
  rw [getFlag, BitVec.getLsbD_and, hmask, Bool.and_true, getFlag]

theorem condFormula_and_low (c : Cnd) (flg : BitVec 16) : condFormula c (flg &&& 0x001F#16) = condFormula c flg := by
  simp only [condFormula, getFlag_and_low]

/-- The words of CONDTAB, bit by bit. -/
theorem condTab_getLsbD (c : Cnd) (k : Fin 32) :
    (condTab.getD c.code.toNat 0#32).getLsbD k = condFormula c (BitVec.ofNat 16 k) := by
  revert k
  cases c <;> decide

/-- `Cond(c)` (R211) is the formula of R213: both see only FLG bits 4:0. -/
theorem condHolds_eq_condFormula (c : Cnd) (flg : BitVec 16) : condHolds c flg = condFormula c flg := by
  have hlt : (flg &&& 0x001F#16).toNat < 32 := by
    rw [BitVec.toNat_and]
    exact Nat.lt_succ_of_le Nat.and_le_right
  calc condHolds c flg
      = condFormula c (BitVec.ofNat 16 (flg &&& 0x001F#16).toNat) := condTab_getLsbD c ⟨_, hlt⟩
    _ = condFormula c flg := by rw [BitVec.ofNat_toNat, BitVec.setWidth_eq, condFormula_and_low]

/-! ## Targets -/

theorem nextPc_eq_ofInt (s : State) (len : Nat) : nextPc s len = BitVec.ofInt 24 (s.pc.toNat + len) := by
  rw [nextPc, BitVec.ofInt_add, BitVec.ofInt_natCast, BitVec.ofInt_natCast, BitVec.ofNat_toNat, BitVec.setWidth_eq]

theorem relTarget_eq_ofInt {n : Nat} (len : Nat) (rel : BitVec n) (s : State) :
    relTarget len rel s = BitVec.ofInt 24 (s.pc.toNat + len + rel.toInt) := by
  rw [relTarget, nextPc_eq_ofInt, BitVec.signExtend, ← BitVec.ofInt_add]

/-! ## The end of an instruction -/

theorem complete_frame (target : Addr) (len nacc : Nat) (s : State) : Frame [] [] [] s (complete target len nacc s) where
  regs p _ := by cases p <;> rfl
  mem _ _ := rfl
  flags _ _ := rfl
  intb := rfl
  bcd := rfl
  sp := rfl

/-- An instruction whose meaning is one `complete` ends as R149 to R152 say. -/
theorem ends_of_complete {i : Instr} {target : Addr} {nacc : Nat} {s : State}
    (h : exec i s = .next (complete target (encode i).length nacc s)) :
    Ends i nacc s (complete target (encode i).length nacc s) where
  runs := h
  cyc := rfl
  sticky := rfl
  inhibit := rfl
  halted := rfl
  fault := rfl
  mcra := rfl
  irq := rfl
  acks := rfl

/-! ## The jumps -/

/-- The first byte of format J8 (30_encoding.md R115): the condition in the low nibble under 0xE0. -/
theorem jCnd_opcode (code : BitVec 4) : 0xE#4 ++ code = 0xE0#8 + code.setWidth 8 := by
  revert code
  decide

/-- Where Jcnd goes (R351), the condition read as a formula: the displacement counts only where it holds. -/
def jCndTarget (c : Cnd) (rel : BitVec 8) (s : State) : Addr :=
  BitVec.ofInt 24 (s.pc.toNat + 2 + if condFormula c s.flg then rel.toInt else 0)

/-- `complete` stands outside the choice of the target, so both ways cost the same. -/
theorem exec_jCnd (c : Cnd) (rel : BitVec 8) (s : State) :
    exec (.jCnd c rel) s = .next (complete (jCndTarget c rel s) 2 0 s) := by
  have htarget : (if condHolds c s.flg then relTarget 2 rel s else nextPc s 2) = jCndTarget c rel s := by
    rw [jCndTarget, condHolds_eq_condFormula, relTarget_eq_ofInt, nextPc_eq_ofInt]
    split
    · rfl
    · rw [Int.add_zero]
      rfl
  rw [← htarget]
  rfl

/-- Settles O49: PC is the exact sum of R351 brought to 24 bits; the rest is `complete`'s. -/
theorem jumpConditional : Obligations.JumpConditional := fun c rel s =>
  ⟨complete (jCndTarget c rel s) 2 0 s, ends_of_complete (exec_jCnd c rel s),
    congrArg (fun b0 => [b0, rel]) (jCnd_opcode c.code), toNat_ofInt_addr _, complete_mem .., complete_flg ..,
    complete_frame ..⟩

theorem exec_jmpW (rel : BitVec 16) (s : State) : exec (.jmpW rel) s = .next (complete (relTarget 3 rel s) 3 0 s) := rfl

theorem exec_jmpA (target : Addr) (s : State) : exec (.jmpA target) s = .next (complete target 4 0 s) := rfl

/-- Settles O50: JMP.W's target is the exact sum of R352 brought to 24 bits, JMP.A's is its own field. -/
theorem jumpUnconditional : Obligations.JumpUnconditional := by
  intro rel target s
  refine ⟨rfl, ?_, rfl, exec_jmpA target s⟩
  rw [exec_jmpW, relTarget_eq_ofInt]
  rfl

/-! ## RTS -/

theorem exec_rts (s : State) : exec .rts s = .next (complete (lowAddr (popValue .long s)) 1 1 (popState .long s)) := rfl

/-- Settles O53: the 32-bit pop reads the word at SP and moves SP by four. -/
theorem returnPops : Obligations.ReturnPops := fun s => ⟨rfl, exec_rts s⟩

/-! ## NOP -/

theorem exec_nop (s : State) : exec .nop s = .next (advance 1 0 s) := rfl

theorem decode_nop (t : List Byte) : decode (0x01#8 :: t) = .ok .nop t := rfl

/-- A running engine executes what the window decodes to (R159). -/
theorem step_of_decode {s : State} {i : Instr} {rest : List Byte} (hrun : s.halted = false)
    (hdec : decode (fetchWindow s) = .ok i rest) : step s = afterExec (exec i s) := by
  simp [step, hrun, hdec]

/-- Where the instruction leaves the engine running, the boundary check follows (R154). -/
theorem afterExec_next_of_running {t : State} (h : t.halted = false) : afterExec (.next t) = .next (boundary t) := by
  simp [afterExec, h]

theorem step_nop {s : State} (hrun : s.halted = false) (hbyte : read8 s.mem s.pc = 0x01#8) :
    step s = .next (boundary (advance 1 0 s)) := by
  obtain ⟨t, hwindow, -⟩ := fetchWindow_head s
  have hdec : decode (fetchWindow s) = .ok .nop t := by rw [hwindow, hbyte, decode_nop]
  rw [step_of_decode hrun hdec, exec_nop, afterExec_next_of_running (by rw [advance_halted, hrun])]

/-- Settles O59: the state NOP leaves is `advance`'s, and the step goes on with the boundary check. -/
theorem nopRuns : Obligations.NopRuns :=
  ⟨rfl, fun s => ⟨exec_nop s, fun hrun hbyte => step_nop hrun hbyte⟩⟩

end Sys2Proof.Machine
end

section
/-! The decoder and the encoder, each read as the same relation: which instruction a descriptor's setup routine builds from
which bytes after `byte0` (30_encoding.md R100 to R125). -/

namespace Sys2Proof.Machine

open Sys2Proof Sys2Proof.Claims

/-! ## Stream fields -/

theorem hiNibble_append (a b : BitVec 4) : hiNibble (a ++ b) = a := extract_append_hi a b

theorem loNibble_append (a b : BitVec 4) : loNibble (a ++ b) = b := extract_append_lo a b

theorem nibbles_append (b : Byte) : hiNibble b ++ loNibble b = b := by
  rw [hiNibble, loNibble, BitVec.extractLsb'_append_extractLsb'_eq_extractLsb' (by rfl), BitVec.extractLsb'_eq_self]

theorem halfBytes_append (b0 b1 : Byte) : halfBytes (b1 ++ b0) = [b0, b1] := by
  rw [halfBytes, extract_append_lo, extract_append_hi]

theorem tripleBytes_append (b0 b1 b2 : Byte) : tripleBytes (b2 ++ b1 ++ b0) = [b0, b1, b2] := by
  have mid : (b2 ++ b1 ++ b0).extractLsb' 8 8 = b1 :=
    (BitVec.extractLsb'_append_eq_of_le (by decide)).trans (extract_append_lo _ _)
  have top : (b2 ++ b1 ++ b0).extractLsb' 16 8 = b2 :=
    (BitVec.extractLsb'_append_eq_of_le (by decide)).trans (extract_append_hi _ _)
  rw [tripleBytes, mid, top, extract_append_lo]

theorem wordBytes_append (b0 b1 b2 b3 : Byte) : wordBytes (b3 ++ b2 ++ b1 ++ b0) = [b0, b1, b2, b3] := by
  have upper := tripleBytes_append b1 b2 b3
  simp only [tripleBytes, List.cons.injEq, and_true] at upper
  obtain ⟨h1, h2, h3⟩ := upper
  have second : (b3 ++ b2 ++ b1 ++ b0).extractLsb' 8 8 = b1 :=
    (BitVec.extractLsb'_append_eq_of_le (by decide)).trans h1
  have third : (b3 ++ b2 ++ b1 ++ b0).extractLsb' 16 8 = b2 :=
    (BitVec.extractLsb'_append_eq_of_le (by decide)).trans h2
  have top : (b3 ++ b2 ++ b1 ++ b0).extractLsb' 24 8 = b3 :=
    (BitVec.extractLsb'_append_eq_of_le (by decide)).trans h3
  rw [wordBytes, second, third, top, extract_append_lo]

theorem takeByte_eq_some_iff {bs rest : List Byte} {d : BitVec 8} :
    takeByte bs = some (d, rest) ↔ bs = [d] ++ rest := by
  cases bs <;> simp [takeByte]

theorem takeHalf_eq_some_iff {bs rest : List Byte} {d : BitVec 16} :
    takeHalf bs = some (d, rest) ↔ bs = halfBytes d ++ rest := by
  constructor
  · intro h
    match bs, h with
    | b0 :: b1 :: t, h =>
      obtain ⟨rfl, rfl⟩ : b1 ++ b0 = d ∧ t = rest := by simpa [takeHalf] using h
      rw [halfBytes_append]
      rfl
  · rintro rfl
    simp [halfBytes, takeHalf, halves_append]

theorem takeTriple_eq_some_iff {bs rest : List Byte} {d : BitVec 24} :
    takeTriple bs = some (d, rest) ↔ bs = tripleBytes d ++ rest := by
  constructor
  · intro h
    match bs, h with
    | b0 :: b1 :: b2 :: t, h =>
      obtain ⟨rfl, rfl⟩ : b2 ++ b1 ++ b0 = d ∧ t = rest := by simpa [takeTriple] using h
      rw [tripleBytes_append]
      rfl
  · rintro rfl
    simp [tripleBytes, takeTriple, triples_append]

theorem takeWord_eq_some_iff {bs rest : List Byte} {d : BitVec 32} :
    takeWord bs = some (d, rest) ↔ bs = wordBytes d ++ rest := by
  constructor
  · intro h
    match bs, h with
    | b0 :: b1 :: b2 :: b3 :: t, h =>
      obtain ⟨rfl, rfl⟩ : b3 ++ b2 ++ b1 ++ b0 = d ∧ t = rest := by simpa [takeWord] using h
      rw [wordBytes_append]
      rfl
  · rintro rfl
    simp [wordBytes, takeWord, bytes_append]

/-- An operand whose extension is one stream field `take` of the bytes `enc` (R178). -/
theorem field_eq_some_iff {n : Nat} {take : List Byte → Option (BitVec n × List Byte)} {enc : BitVec n → List Byte}
    (htake : ∀ bs rest d, take bs = some (d, rest) ↔ bs = enc d ++ rest) {mk : BitVec n → Opnd} {bs rest : List Byte}
    {o : Opnd} :
    ((take bs).map fun p => (mk p.1, p.2)) = some (o, rest) ↔ ∃ d, o = mk d ∧ bs = enc d ++ rest := by
  simp only [Option.map_eq_some_iff, Prod.exists, Prod.mk.injEq, htake]
  constructor
  · rintro ⟨d, t, hbs, rfl, rfl⟩
    exact ⟨d, rfl, hbs⟩
  · rintro ⟨d, rfl, hbs⟩
    exact ⟨d, rest, hbs, rfl, rfl⟩

theorem takeOpnd_of_ext (o : Opnd) (rest : List Byte) : takeOpnd o.mode (o.ext ++ rest) = some (o, rest) := by
  cases o with
  | dreg r => cases r <;> rfl
  | areg a => cases a <;> rfl
  | ind a => cases a <;> rfl
  | dsp8 a d => cases a <;> rfl
  | dsp16 a d => cases a <;> exact (field_eq_some_iff fun _ _ _ => takeHalf_eq_some_iff).2 ⟨d, rfl, rfl⟩
  | dsp24 a d => cases a <;> exact (field_eq_some_iff fun _ _ _ => takeTriple_eq_some_iff).2 ⟨d, rfl, rfl⟩
  | abs16 d => exact (field_eq_some_iff fun _ _ _ => takeHalf_eq_some_iff).2 ⟨d, rfl, rfl⟩
  | abs24 d => exact (field_eq_some_iff fun _ _ _ => takeTriple_eq_some_iff).2 ⟨d, rfl, rfl⟩

theorem bitVec4_cases (m : BitVec 4) : ∃ k : Fin 16, m = BitVec.ofNat 4 k.1 :=
  ⟨⟨m.toNat, m.isLt⟩, by simp⟩

theorem mode_of_takeOpnd {m : BitVec 4} {bs rest : List Byte} {o : Opnd} (h : takeOpnd m bs = some (o, rest)) :
    m = o.mode ∧ bs = o.ext ++ rest := by
  obtain ⟨k, rfl⟩ := bitVec4_cases m
  match k, h with
  | ⟨0, _⟩, h | ⟨1, _⟩, h | ⟨2, _⟩, h | ⟨3, _⟩, h | ⟨4, _⟩, h | ⟨5, _⟩, h | ⟨6, _⟩, h | ⟨7, _⟩, h =>
    obtain ⟨rfl, rfl⟩ := Prod.mk.inj (Option.some.inj h)
    exact ⟨rfl, rfl⟩
  | ⟨8, _⟩, h | ⟨9, _⟩, h =>
    obtain ⟨d, rfl, rfl⟩ := (field_eq_some_iff fun _ _ _ => takeByte_eq_some_iff).1 h
    exact ⟨rfl, rfl⟩
  | ⟨10, _⟩, h | ⟨11, _⟩, h | ⟨14, _⟩, h =>
    obtain ⟨d, rfl, rfl⟩ := (field_eq_some_iff fun _ _ _ => takeHalf_eq_some_iff).1 h
    exact ⟨rfl, rfl⟩
  | ⟨12, _⟩, h | ⟨13, _⟩, h | ⟨15, _⟩, h =>
    obtain ⟨d, rfl, rfl⟩ := (field_eq_some_iff fun _ _ _ => takeTriple_eq_some_iff).1 h
    exact ⟨rfl, rfl⟩
  | ⟨n + 16, hn⟩, _ => exact absurd hn (by omega)

/-- Mode code and extension bytes together are the operand (R173, R178). -/
theorem takeOpnd_eq_some_iff {m : BitVec 4} {bs rest : List Byte} {o : Opnd} :
    takeOpnd m bs = some (o, rest) ↔ m = o.mode ∧ bs = o.ext ++ rest := by
  refine ⟨mode_of_takeOpnd, ?_⟩
  rintro ⟨rfl, rfl⟩
  exact takeOpnd_of_ext o rest

theorem ofCode_code (c : Cnd) : Cnd.ofCode c.code = c := by cases c <;> rfl

theorem code_ofCode (c : BitVec 4) : (Cnd.ofCode c).code = c := by
  revert c
  decide

/-! ## The setup routines as a relation -/

/-- `FormReads f i bytes`: the setup routine `f` builds `i` from exactly `bytes`, the bytes after `byte0` (R104 to R120). -/
inductive FormReads : Form → Instr → List Byte → Prop where
  | fixed (i : Instr) : FormReads (.fixed i) i []
  | g2 (mk : Opnd → Opnd → Instr) (src dst : Opnd) :
      FormReads (.g2 mk) (mk src dst) ((src.mode ++ dst.mode) :: (src.ext ++ dst.ext))
  | immB (mk : Opnd → BitVec 8 → Instr) (dst : Opnd) (imm : BitVec 8) :
      FormReads (.immB mk) (mk dst imm) ((0#4 ++ dst.mode) :: (dst.ext ++ [imm]))
  | immW (mk : Opnd → BitVec 16 → Instr) (dst : Opnd) (imm : BitVec 16) :
      FormReads (.immW mk) (mk dst imm) ((0#4 ++ dst.mode) :: (dst.ext ++ halfBytes imm))
  | immL (mk : Opnd → BitVec 32 → Instr) (dst : Opnd) (imm : BitVec 32) :
      FormReads (.immL mk) (mk dst imm) ((0#4 ++ dst.mode) :: (dst.ext ++ wordBytes imm))
  | q (mk : BitVec 4 → Opnd → Instr) (n : BitVec 4) (o : Opnd) : FormReads (.q mk) (mk n o) ((n ++ o.mode) :: o.ext)
  | one (mk : Opnd → Instr) (o : Opnd) : FormReads (.one mk) (mk o) ((0#4 ++ o.mode) :: o.ext)
  | cregFlg (flg sp intb : Opnd → Instr) (o : Opnd) :
      FormReads (.creg flg sp intb) (flg o) ((0#4 ++ o.mode) :: o.ext)
  | cregSp (flg sp intb : Opnd → Instr) (o : Opnd) : FormReads (.creg flg sp intb) (sp o) ((1#4 ++ o.mode) :: o.ext)
  | cregIntb (flg sp intb : Opnd → Instr) (o : Opnd) :
      FormReads (.creg flg sp intb) (intb o) ((2#4 ++ o.mode) :: o.ext)
  | cnd (mk : Cnd → Opnd → Instr) (c : Cnd) (o : Opnd) : FormReads (.cnd mk) (mk c o) ((c.code ++ o.mode) :: o.ext)
  | j8 (mk : BitVec 8 → Instr) (d : BitVec 8) : FormReads (.j8 mk) (mk d) [d]
  | j16 (mk : BitVec 16 → Instr) (d : BitVec 16) : FormReads (.j16 mk) (mk d) (halfBytes d)
  | j24 (mk : BitVec 24 → Instr) (d : BitVec 24) : FormReads (.j24 mk) (mk d) (tripleBytes d)

theorem build_eq_ok_iff {α : Type} {mk : α → Instr} {r : Option (α × List Byte)} {i : Instr} {rest : List Byte} :
    Decoded.build mk r = .ok i rest ↔ ∃ a, i = mk a ∧ r = some (a, rest) := by
  cases r with
  | none => simp [Decoded.build]
  | some p =>
    obtain ⟨a, t⟩ := p
    simp only [Decoded.build, Decoded.ok.injEq, Option.some.injEq, Prod.mk.injEq]
    constructor
    · rintro ⟨rfl, rfl⟩
      exact ⟨a, rfl, rfl, rfl⟩
    · rintro ⟨_, rfl, rfl, rfl⟩
      exact ⟨rfl, rfl⟩

theorem decodeOne_eq_ok_iff {mk : Opnd → Instr} {b1 : Byte} {t : List Byte} {i : Instr} {rest : List Byte} :
    decodeOne mk b1 t = .ok i rest ↔ ∃ o, i = mk o ∧ loNibble b1 = o.mode ∧ t = o.ext ++ rest := by
  simp only [decodeOne, build_eq_ok_iff, takeOpnd_eq_some_iff]

theorem decodeImm_eq_ok_iff {n : Nat} {take : List Byte → Option (BitVec n × List Byte)} {enc : BitVec n → List Byte}
    (htake : ∀ bs rest d, take bs = some (d, rest) ↔ bs = enc d ++ rest) {mk : Opnd → BitVec n → Instr} {b0 b1 : Byte}
    {t : List Byte} {i : Instr} {rest : List Byte} :
    decodeImm take mk b0 b1 t = .ok i rest ↔
      ∃ o imm, i = mk o imm ∧ b1 = 0#4 ++ o.mode ∧ t = o.ext ++ enc imm ++ rest := by
  constructor
  · intro h
    unfold decodeImm at h
    split at h
    · split at h
      · rename_i hhi _ p hp
        obtain ⟨hmode, rfl⟩ := takeOpnd_eq_some_iff.1 hp
        obtain ⟨imm, rfl, hrest⟩ := build_eq_ok_iff.1 h
        refine ⟨p.1, imm, rfl, ?_, ?_⟩
        · rw [← hhi, ← hmode, nibbles_append]
        · rw [(htake _ _ _).1 hrest, List.append_assoc]
      · nomatch h
    · nomatch h
  · rintro ⟨o, imm, rfl, rfl, rfl⟩
    rw [decodeImm, hiNibble_append, loNibble_append, if_pos rfl, List.append_assoc, takeOpnd_of_ext]
    exact build_eq_ok_iff.2 ⟨imm, rfl, (htake _ _ _).2 rfl⟩

/-- A mode byte and an operand, the high nibble being a field of its own. -/
theorem modeByte_cons {b1 : Byte} {t rest : List Byte} {n : BitVec 4} {o : Opnd} (hhi : hiNibble b1 = n)
    (hlo : loNibble b1 = o.mode) (ht : t = o.ext ++ rest) : b1 :: t = ((n ++ o.mode) :: o.ext) ++ rest := by
  rw [← hhi, ← hlo, nibbles_append, ht]
  rfl

/-- What a setup routine with a mode byte accepts is what it reads. -/
theorem reads_of_decodeMode {f : Form} {b0 b1 : Byte} {t rest : List Byte} {i : Instr}
    (hfixed : ∀ j, f ≠ .fixed j) (h : f.decodeMode b0 b1 t = .ok i rest) :
    ∃ bytes, FormReads f i bytes ∧ b1 :: t = bytes ++ rest := by
  cases f with
  | fixed j => exact absurd rfl (hfixed j)
  | g2 mk =>
    simp only [Form.decodeMode] at h
    split at h
    · rename_i p hp
      obtain ⟨hsrc, rfl⟩ := takeOpnd_eq_some_iff.1 hp
      obtain ⟨dst, rfl, hd⟩ := build_eq_ok_iff.1 h
      obtain ⟨hdst, hrest⟩ := takeOpnd_eq_some_iff.1 hd
      refine ⟨_, .g2 mk p.1 dst, ?_⟩
      rw [← hsrc, ← hdst, nibbles_append, hrest, List.cons_append, List.append_assoc]
    · nomatch h
  | immB mk =>
    obtain ⟨o, imm, rfl, rfl, rfl⟩ := (decodeImm_eq_ok_iff fun _ _ _ => takeByte_eq_some_iff).1 h
    exact ⟨_, .immB mk o imm, rfl⟩
  | immW mk =>
    obtain ⟨o, imm, rfl, rfl, rfl⟩ := (decodeImm_eq_ok_iff fun _ _ _ => takeHalf_eq_some_iff).1 h
    exact ⟨_, .immW mk o imm, rfl⟩
  | immL mk =>
    obtain ⟨o, imm, rfl, rfl, rfl⟩ := (decodeImm_eq_ok_iff fun _ _ _ => takeWord_eq_some_iff).1 h
    exact ⟨_, .immL mk o imm, rfl⟩
  | q mk =>
    obtain ⟨o, rfl, hlo, ht⟩ := decodeOne_eq_ok_iff.1 h
    exact ⟨_, .q mk _ o, modeByte_cons rfl hlo ht⟩
  | one mk =>
    simp only [Form.decodeMode] at h
    split at h
    · rename_i hhi
      obtain ⟨o, rfl, hlo, ht⟩ := decodeOne_eq_ok_iff.1 h
      exact ⟨_, .one mk o, modeByte_cons hhi hlo ht⟩
    · nomatch h
  | creg flg sp intb =>
    simp only [Form.decodeMode] at h
    split at h
    · rename_i hhi
      obtain ⟨o, rfl, hlo, ht⟩ := decodeOne_eq_ok_iff.1 h
      exact ⟨_, .cregFlg flg sp intb o, modeByte_cons (BitVec.eq_of_toNat_eq hhi) hlo ht⟩
    · rename_i hhi
      obtain ⟨o, rfl, hlo, ht⟩ := decodeOne_eq_ok_iff.1 h
      exact ⟨_, .cregSp flg sp intb o, modeByte_cons (BitVec.eq_of_toNat_eq hhi) hlo ht⟩
    · rename_i hhi
      obtain ⟨o, rfl, hlo, ht⟩ := decodeOne_eq_ok_iff.1 h
      exact ⟨_, .cregIntb flg sp intb o, modeByte_cons (BitVec.eq_of_toNat_eq hhi) hlo ht⟩
    · nomatch h
  | cnd mk =>
    obtain ⟨o, rfl, hlo, ht⟩ := decodeOne_eq_ok_iff.1 h
    exact ⟨_, .cnd mk _ o, modeByte_cons (code_ofCode _).symm hlo ht⟩
  | j8 mk =>
    simp only [Form.decodeMode, build_eq_ok_iff] at h
    obtain ⟨d, rfl, hd⟩ := h
    exact ⟨_, .j8 mk d, takeByte_eq_some_iff.1 hd⟩
  | j16 mk =>
    simp only [Form.decodeMode, build_eq_ok_iff] at h
    obtain ⟨d, rfl, hd⟩ := h
    exact ⟨_, .j16 mk d, takeHalf_eq_some_iff.1 hd⟩
  | j24 mk =>
    simp only [Form.decodeMode, build_eq_ok_iff] at h
    obtain ⟨d, rfl, hd⟩ := h
    exact ⟨_, .j24 mk d, takeTriple_eq_some_iff.1 hd⟩

/-- The operand of a mode byte is decoded from its own mode code and extension bytes. -/
theorem decodeOne_of_ext (mk : Opnd → Instr) (n : BitVec 4) (o : Opnd) (rest : List Byte) :
    decodeOne mk (n ++ o.mode) (o.ext ++ rest) = .ok (mk o) rest :=
  decodeOne_eq_ok_iff.2 ⟨o, rfl, loNibble_append _ _, rfl⟩

/-- What a setup routine reads it decodes, whatever follows. -/
theorem decode_of_reads {f : Form} {i : Instr} {bytes : List Byte} (h : FormReads f i bytes) {b0 : Byte}
    (hf : descriptor b0 = some f) (rest : List Byte) : decode (b0 :: (bytes ++ rest)) = .ok i rest := by
  cases h with
  | fixed => simp only [decode, hf, List.nil_append]
  | g2 mk src dst =>
    simp only [decode, hf, List.cons_append, Form.decodeMode, hiNibble_append, loNibble_append, List.append_assoc,
      takeOpnd_of_ext, Decoded.build]
  | immB mk dst imm =>
    simp only [decode, hf, List.cons_append, Form.decodeMode]
    exact (decodeImm_eq_ok_iff fun _ _ _ => takeByte_eq_some_iff).2 ⟨dst, imm, rfl, rfl, rfl⟩
  | immW mk dst imm =>
    simp only [decode, hf, List.cons_append, Form.decodeMode]
    exact (decodeImm_eq_ok_iff fun _ _ _ => takeHalf_eq_some_iff).2 ⟨dst, imm, rfl, rfl, rfl⟩
  | immL mk dst imm =>
    simp only [decode, hf, List.cons_append, Form.decodeMode]
    exact (decodeImm_eq_ok_iff fun _ _ _ => takeWord_eq_some_iff).2 ⟨dst, imm, rfl, rfl, rfl⟩
  | q mk n o => simp only [decode, hf, List.cons_append, Form.decodeMode, hiNibble_append, decodeOne_of_ext]
  | one mk o => simp only [decode, hf, List.cons_append, Form.decodeMode, hiNibble_append, decodeOne_of_ext, if_true]
  | cregFlg flg sp intb o | cregSp flg sp intb o | cregIntb flg sp intb o =>
    simp only [decode, hf, List.cons_append, Form.decodeMode, hiNibble_append, BitVec.reduceToNat, decodeOne_of_ext]
  | cnd mk c o =>
    simp only [decode, hf, List.cons_append, Form.decodeMode, hiNibble_append, ofCode_code, decodeOne_of_ext]
  | j8 mk d =>
    simp only [decode, hf, List.cons_append, List.nil_append, Form.decodeMode, takeByte, Decoded.build]
  | j16 mk d =>
    simp only [decode, hf, halfBytes, List.cons_append, List.nil_append, Form.decodeMode, takeHalf, halves_append,
      Decoded.build]
  | j24 mk d =>
    simp only [decode, hf, tripleBytes, List.cons_append, List.nil_append, Form.decodeMode, takeTriple, triples_append,
      Decoded.build]

/-- The decoder as a relation: the descriptor of `byte0`, and what its setup routine reads. -/
theorem decode_cons_eq_ok_iff {b0 : Byte} {t rest : List Byte} {i : Instr} :
    decode (b0 :: t) = .ok i rest ↔ ∃ f bytes, descriptor b0 = some f ∧ FormReads f i bytes ∧ t = bytes ++ rest := by
  constructor
  · intro h
    simp only [decode] at h
    split at h
    · nomatch h
    · rename_i j hj
      obtain ⟨rfl, rfl⟩ : j = i ∧ t = rest := by simpa using h
      exact ⟨_, [], hj, .fixed j, rfl⟩
    · rename_i f hfixed hf
      split at h
      · nomatch h
      · obtain ⟨bytes, hreads, hbytes⟩ := reads_of_decodeMode (fun j e => hfixed j e) h
        exact ⟨f, bytes, hf, hreads, hbytes⟩
  · rintro ⟨f, bytes, hf, hreads, rfl⟩
    exact decode_of_reads hreads hf rest

/-! ## The descriptor table -/

theorem bitVec3_cases (b : BitVec 3) :
    b = 0#3 ∨ b = 1#3 ∨ b = 2#3 ∨ b = 3#3 ∨ b = 4#3 ∨ b = 5#3 ∨ b = 6#3 ∨ b = 7#3 := by
  revert b
  decide

/-- The rows of mask 0xF8 (R113, R114). -/
theorem descriptor_bit (bit : BitVec 3) :
    descriptor (0x16#5 ++ bit) = some (.one (.bset bit)) ∧ descriptor (0x17#5 ++ bit) = some (.one (.bclr bit)) ∧
    descriptor (0x18#5 ++ bit) = some (.one (.bnot bit)) ∧ descriptor (0x19#5 ++ bit) = some (.one (.btst bit)) ∧
    descriptor (0x1A#5 ++ bit) = some (.cnd (.bmCnd bit)) := by
  rcases bitVec3_cases bit with rfl | rfl | rfl | rfl | rfl | rfl | rfl | rfl <;> exact ⟨rfl, rfl, rfl, rfl, rfl⟩

/-- The row of mask 0xF0 (R115). -/
theorem descriptor_jCnd (c : Cnd) : descriptor (0xE#4 ++ c.code) = some (.j8 (.jCnd c)) := by
  cases c <;> rfl

/-- Every encoding is a first byte whose descriptor reads the bytes after it as the instruction. -/
theorem encode_reads (i : Instr) :
    ∃ b0 f bytes, encode i = b0 :: bytes ∧ FormReads f i bytes ∧ descriptor b0 = some f := by
  cases i with
  | nop | fsetC | fsetZ | fsetS | fsetO | fsetI | rts | reit | fclrC | fclrZ | fclrS | fclrO | fclrI =>
    exact ⟨_, _, _, rfl, .fixed _, rfl⟩
  | movB src dst | movW src dst | movL src dst | addB src dst | addW src dst | addL src dst | adcB src dst
  | adcW src dst | adcL src dst | subB src dst | subW src dst | subL src dst | sbbB src dst | sbbW src dst
  | sbbL src dst | cmpB src dst | cmpW src dst | cmpL src dst | andB src dst | andW src dst | andL src dst
  | orB src dst | orW src dst | orL src dst | xorB src dst | xorW src dst | xorL src dst | tstB src dst
  | tstW src dst | tstL src dst | daddB src dst | daddW src dst | dsubB src dst | dsubW src dst | extsB src dst
  | extsW src dst | extzB src dst | extzW src dst | lea src dst =>
    exact ⟨_, _, _, rfl, .g2 _ src dst, rfl⟩
  | movBImm dst imm | addBImm dst imm | subBImm dst imm | cmpBImm dst imm | andBImm dst imm | orBImm dst imm
  | xorBImm dst imm | tstBImm dst imm =>
    exact ⟨_, _, _, rfl, .immB _ dst imm, rfl⟩
  | movWImm dst imm | addWImm dst imm | subWImm dst imm | cmpWImm dst imm | andWImm dst imm | orWImm dst imm
  | xorWImm dst imm | tstWImm dst imm =>
    exact ⟨_, _, _, rfl, .immW _ dst imm, rfl⟩
  | movLImm dst imm | addLImm dst imm | subLImm dst imm | cmpLImm dst imm | andLImm dst imm | orLImm dst imm
  | xorLImm dst imm | tstLImm dst imm =>
    exact ⟨_, _, _, rfl, .immL _ dst imm, rfl⟩
  | addqB n o | addqW n o | addqL n o | shlB n o | shlW n o | shlL n o | shrB n o | shrW n o | shrL n o | sarB n o
  | sarW n o | sarL n o | rolB n o | rolW n o | rolL n o | rorB n o | rorW n o | rorL n o =>
    exact ⟨_, _, _, rfl, .q _ n o, rfl⟩
  | notB o | notW o | notL o | negB o | negW o | negL o | pushB o | pushW o | pushL o | popB o | popW o | popL o
  | pusha o | jmpi o | jsri o | indexbB o | indexbW o | indexwB o | indexwW o | indexlB o | indexlW o | bitindexB o
  | bitindexW o =>
    exact ⟨_, _, _, rfl, .one _ o, rfl⟩
  | ldcFlg o | stcFlg o => exact ⟨_, _, _, rfl, .cregFlg _ _ _ o, rfl⟩
  | ldcSp o | stcSp o => exact ⟨_, _, _, rfl, .cregSp _ _ _ o, rfl⟩
  | ldcIntb o | stcIntb o => exact ⟨_, _, _, rfl, .cregIntb _ _ _ o, rfl⟩
  | scCnd c o => exact ⟨_, _, _, rfl, .cnd _ c o, rfl⟩
  | bset bit o => exact ⟨_, _, _, rfl, .one (.bset bit) o, (descriptor_bit bit).1⟩
  | bclr bit o => exact ⟨_, _, _, rfl, .one (.bclr bit) o, (descriptor_bit bit).2.1⟩
  | bnot bit o => exact ⟨_, _, _, rfl, .one (.bnot bit) o, (descriptor_bit bit).2.2.1⟩
  | btst bit o => exact ⟨_, _, _, rfl, .one (.btst bit) o, (descriptor_bit bit).2.2.2.1⟩
  | bmCnd bit c o => exact ⟨_, _, _, rfl, .cnd (.bmCnd bit) c o, (descriptor_bit bit).2.2.2.2⟩
  | jCnd c rel => exact ⟨_, _, _, rfl, .j8 (.jCnd c) rel, descriptor_jCnd c⟩
  | jmpW rel | jsrW rel => exact ⟨_, _, _, rfl, .j16 _ rel, rfl⟩
  | jmpA target | jsrA target => exact ⟨_, _, _, rfl, .j24 _ target, rfl⟩
  | int v => exact ⟨_, _, _, rfl, .j8 _ v, rfl⟩

/-- A row of the table agrees with the encoder on every `byte0` it matches. -/
def RowEncodes (d : Desc) : Prop :=
  ∀ b0 i bytes, b0 &&& d.mask = d.pat → FormReads (d.form b0) i bytes → encode i = b0 :: bytes

theorem rowEncodes_exact {pat : Byte} {f : Form} (h : ∀ i bytes, FormReads f i bytes → encode i = pat :: bytes) :
    RowEncodes (.exact pat f) := by
  intro b0 i bytes hb hreads
  have hpat : b0 = pat := (BitVec.and_allOnes (x := b0)).symm.trans hb
  rw [hpat]
  exact h i bytes hreads

theorem rowEncodes_bitForm {hi : BitVec 5} {f : BitVec 3 → Form}
    (h : ∀ bit i bytes, FormReads (f bit) i bytes → encode i = (hi ++ bit) :: bytes) :
    RowEncodes (.bitForm (hi ++ 0#3) f) := by
  intro b0 i bytes hb hreads
  have hhigh : b0.extractLsb' 3 5 = hi := by
    have hfield : (b0 &&& 0xF8#8).extractLsb' 3 5 = (hi ++ 0#3).extractLsb' 3 5 := congrArg _ hb
    have hmask : (0xF8#8).extractLsb' 3 5 = BitVec.allOnes 5 := rfl
    rwa [BitVec.extractLsb'_and, hmask, BitVec.and_allOnes, extract_append_hi] at hfield
  have hb0 : b0 = hi ++ b0.extractLsb' 0 3 := by
    rw [← hhigh, BitVec.extractLsb'_append_extractLsb'_eq_extractLsb' (by rfl), BitVec.extractLsb'_eq_self]
  rw [h _ i bytes hreads, ← hb0]

theorem rowEncodes_cndForm {hi : BitVec 4} {f : Cnd → Form}
    (h : ∀ c i bytes, FormReads (f c) i bytes → encode i = (hi ++ c.code) :: bytes) :
    RowEncodes (.cndForm (hi ++ 0#4) f) := by
  intro b0 i bytes hb hreads
  have hhigh : hiNibble b0 = hi := by
    have hfield : (b0 &&& 0xF0#8).extractLsb' 4 4 = (hi ++ 0#4).extractLsb' 4 4 := congrArg _ hb
    have hmask : (0xF0#8).extractLsb' 4 4 = BitVec.allOnes 4 := rfl
    rwa [BitVec.extractLsb'_and, hmask, BitVec.and_allOnes, extract_append_hi] at hfield
  rw [h _ i bytes hreads, code_ofCode, ← hhigh, nibbles_append]

/-- A row for one value of `byte0` is checked by each form of bytes its setup routine reads. -/
theorem rows_of_one_byte :
    ∀ d ∈ descMoves ++ descArith ++ descDecimal ++ descLogic ++ descShift ++ descStack ++ descIndex, RowEncodes d := by
  simp only [descMoves, descArith, descDecimal, descLogic, descShift, descStack, descIndex, List.forall_mem_append,
    List.forall_mem_cons, List.not_mem_nil, false_imp_iff, implies_true, and_true]
  repeat' apply And.intro
  all_goals exact rowEncodes_exact (by rintro _ _ ⟨⟩ <;> rfl)

theorem rows_of_bit : ∀ d ∈ descBit, RowEncodes d := by
  simp only [descBit, List.forall_mem_cons, List.not_mem_nil, false_imp_iff, implies_true, and_true]
  exact ⟨rowEncodes_exact (by rintro _ _ ⟨⟩; rfl), rowEncodes_bitForm (hi := 0x16#5) (by rintro _ _ _ ⟨⟩; rfl),
    rowEncodes_bitForm (hi := 0x17#5) (by rintro _ _ _ ⟨⟩; rfl),
    rowEncodes_bitForm (hi := 0x18#5) (by rintro _ _ _ ⟨⟩; rfl),
    rowEncodes_bitForm (hi := 0x19#5) (by rintro _ _ _ ⟨⟩; rfl),
    rowEncodes_bitForm (hi := 0x1A#5) (by rintro _ _ _ ⟨⟩; rfl)⟩

theorem rows_of_control : ∀ d ∈ descControl, RowEncodes d := by
  have jump : RowEncodes (.cndForm 0xE0#8 fun c => .j8 (.jCnd c)) :=
    rowEncodes_cndForm (hi := 0xE#4) (by rintro _ _ _ ⟨⟩; rfl)
  simp only [descControl, List.forall_mem_cons, jump, List.not_mem_nil, false_imp_iff, implies_true, and_true, true_and]
  repeat' apply And.intro
  all_goals exact rowEncodes_exact (by rintro _ _ ⟨⟩; rfl)

/-- The whole table agrees with the encoder. -/
theorem descTable_rows : ∀ d ∈ descTable, RowEncodes d := by
  have one_byte := rows_of_one_byte
  rw [List.forall_mem_append] at one_byte
  obtain ⟨front, index⟩ := one_byte
  exact List.forall_mem_append.2
    ⟨List.forall_mem_append.2 ⟨List.forall_mem_append.2 ⟨front, rows_of_bit⟩, index⟩, rows_of_control⟩

theorem encode_of_descriptor {b0 : Byte} {f : Form} {i : Instr} {bytes : List Byte} (hf : descriptor b0 = some f)
    (h : FormReads f i bytes) : encode i = b0 :: bytes := by
  obtain ⟨d, hd, rfl⟩ := Option.map_eq_some_iff.1 hf
  exact descTable_rows d (List.mem_of_find?_eq_some hd) b0 i bytes (by simpa using List.find?_some hd) h

/-! ## The round trip -/

/-- Settles O2: the descriptor of the encoding's first byte reads the rest of it as the instruction. -/
theorem decodeOfEncode : Obligations.DecodeOfEncode := by
  intro i rest
  obtain ⟨b0, f, bytes, hcode, hreads, hf⟩ := encode_reads i
  rw [hcode]
  exact decode_of_reads hreads hf rest

/-- Settles O3: what the descriptor of the first byte reads is what the encoder writes, row by row of the table. -/
theorem encodeOfDecode : Obligations.EncodeOfDecode := by
  intro bs rest i h
  cases bs with
  | nil => nomatch h
  | cons b0 t =>
    obtain ⟨f, bytes, hf, hreads, rfl⟩ := decode_cons_eq_ok_iff.1 h
    rw [encode_of_descriptor hf hreads]
    rfl

/-- Settles O1: nine words of each format, decoded by computation. -/
theorem knownWordsDecode : Obligations.KnownWordsDecode := by
  refine ⟨rfl, rfl, rfl, rfl, rfl, rfl, rfl, rfl, rfl, rfl, rfl, rfl, rfl, rfl, rfl⟩

end Sys2Proof.Machine
end

section
/-! What the decoder refuses (30_encoding.md R122, R123), what a step finds at PC, and the steps that stand for. -/

namespace Sys2Proof.Machine

open Sys2Proof Sys2Proof.Claims

/-! ## Bytes with no descriptor, and reserved fields -/

/-- The formats whose mode byte has a reserved high nibble: I, G1, P and B (R104, R120). -/
def reservesHigh : Form → Bool
  | .immB _ | .immW _ | .immL _ | .one _ => true
  | _ => false

/-- Format C, whose high nibble selects one of three registers. -/
def selectsControl : Form → Bool
  | .creg _ _ _ => true
  | _ => false

theorem descriptor_classes_nibbles (hi lo : BitVec 4) :
    (descriptor (hi ++ lo)).isNone = inRanges illegalRanges (hi ++ lo) ∧
    (descriptor (hi ++ lo)).any reservesHigh = inRanges reservedNibbleRanges (hi ++ lo) ∧
    (descriptor (hi ++ lo)).any selectsControl = inRanges [(0xA4, 0xA5)] (hi ++ lo) := by
  revert hi lo
  decide

/-- What the descriptor table says of each first byte (R120, R122). -/
theorem descriptor_classes (b : Byte) :
    (descriptor b).isNone = inRanges illegalRanges b ∧
    (descriptor b).any reservesHigh = inRanges reservedNibbleRanges b ∧
    (descriptor b).any selectsControl = inRanges [(0xA4, 0xA5)] b := by
  have h := descriptor_classes_nibbles (hiNibble b) (loNibble b)
  rwa [nibbles_append] at h

theorem hiNibble_toNat (b : Byte) : (hiNibble b).toNat = b.toNat / 16 := by
  have := b.isLt
  rw [hiNibble, BitVec.extractLsb'_toNat, Nat.shiftRight_eq_div_pow]
  omega

theorem decodeMode_of_reservesHigh {f : Form} (hf : reservesHigh f = true) {b1 : Byte} (h1 : 16 ≤ b1.toNat) (b0 : Byte)
    (t : List Byte) : f.decodeMode b0 b1 t = .reservedField b0 := by
  have hhi : hiNibble b1 ≠ 0#4 := fun e => by
    have hdiv := hiNibble_toNat b1
    rw [e, BitVec.toNat_ofNat] at hdiv
    omega
  cases f with
  | immB mk | immW mk | immL mk => exact if_neg hhi
  | one mk => exact if_neg hhi
  | _ => nomatch hf

theorem decodeMode_of_selectsControl {f : Form} (hf : selectsControl f = true) {b1 : Byte} (h1 : 48 ≤ b1.toNat)
    (b0 : Byte) (t : List Byte) : f.decodeMode b0 b1 t = .reservedField b0 := by
  have hdiv := hiNibble_toNat b1
  cases f with
  | creg flg sp intb =>
    simp only [Form.decodeMode]
    split
    · omega
    · omega
    · omega
    · rfl
  | _ => nomatch hf

theorem decode_of_decodeMode {b0 b1 : Byte} {t : List Byte} {f : Form} {d : Decoded} (hf : descriptor b0 = some f)
    (hfixed : ∀ i, f ≠ .fixed i) (h : f.decodeMode b0 b1 t = d) : decode (b0 :: b1 :: t) = d := by
  rw [← h]
  cases f with
  | fixed i => exact absurd rfl (hfixed i)
  | _ => simp only [decode, hf]

/-! ## The bytes at PC -/

/-- A nine-byte window starts with the two bytes at PC and after it. -/
theorem fetchWindow_head2 (s : State) :
    ∃ t, fetchWindow s = read8 s.mem s.pc :: read8 s.mem (s.pc + 1#24) :: t ∧ t.length = 7 := by
  refine ⟨((List.range 7).map fun k => s.pc + BitVec.ofNat 24 (k + 2)).map (read8 s.mem), ?_, by simp⟩
  simp [fetchWindow, span, maxLength, List.range_succ]

theorem build_ne_truncated {α : Type} {mk : α → Instr} {r : Option (α × List Byte)} (h : ∃ p, r = some p) :
    Decoded.build mk r ≠ .truncated := by
  obtain ⟨p, rfl⟩ := h
  exact Decoded.noConfusion

theorem decodeOne_ne_truncated {mk : Opnd → Instr} {b1 : Byte} {t : List Byte} (ht : 3 ≤ t.length) :
    decodeOne mk b1 t ≠ .truncated := build_ne_truncated (takeOpnd_isSome ht)

theorem decodeImm_ne_truncated {n : Nat} {take : List Byte → Option (BitVec n × List Byte)}
    (htake : ∀ bs, 4 ≤ bs.length → ∃ p, take bs = some p) {mk : Opnd → BitVec n → Instr} {b0 b1 : Byte} {t : List Byte}
    (ht : 7 ≤ t.length) : decodeImm take mk b0 b1 t ≠ .truncated := by
  obtain ⟨p, hp⟩ := takeOpnd_isSome (m := loNibble b1) (show 3 ≤ t.length by omega)
  unfold decodeImm
  split
  · rw [hp]
    have hlen := takeOpnd_length hp
    have hext := extLen_le p.1
    exact build_ne_truncated (htake _ (by omega))
  · exact Decoded.noConfusion

/-- Seven bytes after the mode byte are enough for every setup routine: an operand takes at most three, an immediate
four. -/
theorem decodeMode_ne_truncated {f : Form} {b0 b1 : Byte} {t : List Byte} (ht : 7 ≤ t.length) :
    f.decodeMode b0 b1 t ≠ .truncated := by
  match t, ht with
  | c :: d :: u, ht =>
    cases f with
    | fixed i => exact Decoded.noConfusion
    | g2 mk =>
      obtain ⟨p, hp⟩ := takeOpnd_isSome (m := hiNibble b1) (show 3 ≤ (c :: d :: u).length by omega)
      have hlen := takeOpnd_length hp
      have hext := extLen_le p.1
      simp only [Form.decodeMode, hp]
      exact build_ne_truncated (takeOpnd_isSome (by omega))
    | immB mk => exact decodeImm_ne_truncated (by rintro (_ | ⟨a, t⟩) h <;> simp_all [takeByte]) ht
    | immW mk => exact decodeImm_ne_truncated (by rintro (_ | ⟨a, _ | ⟨b, t⟩⟩) h <;> simp_all [takeHalf]) ht
    | immL mk =>
      exact decodeImm_ne_truncated
        (by rintro (_ | ⟨a, _ | ⟨b, _ | ⟨c, _ | ⟨d, t⟩⟩⟩⟩) h <;> simp_all [takeWord]) ht
    | q mk | cnd mk => exact decodeOne_ne_truncated (by omega)
    | one mk =>
      simp only [Form.decodeMode]
      split
      · exact decodeOne_ne_truncated (by omega)
      · exact Decoded.noConfusion
    | creg flg sp intb =>
      simp only [Form.decodeMode]
      split
      · exact decodeOne_ne_truncated (by omega)
      · exact decodeOne_ne_truncated (by omega)
      · exact decodeOne_ne_truncated (by omega)
      · exact Decoded.noConfusion
    | j8 mk | j16 mk | j24 mk => exact Decoded.noConfusion

/-- The fetch window is never too short (R100), so the step never faults. -/
theorem decode_fetchWindow_ne_truncated (s : State) : decode (fetchWindow s) ≠ .truncated := by
  obtain ⟨t, hwindow, hlen⟩ := fetchWindow_head2 s
  rw [hwindow]
  simp only [decode]
  split
  · exact Decoded.noConfusion
  · exact Decoded.noConfusion
  · exact decodeMode_ne_truncated (by omega)

theorem fatalEntry_illegalOpcode (s : State) :
    fatalEntry .illegalOpcode (read8 s.mem s.pc) s = illegalOpcodeState s := rfl

theorem step_of_noDescriptor {s : State} (hrun : s.halted = false) (h : descriptor (read8 s.mem s.pc) = none) :
    step s = .next (illegalOpcodeState s) := by
  obtain ⟨t, hwindow, -⟩ := fetchWindow_head s
  simp only [step, hrun, Bool.false_eq_true, if_false, hwindow, decode, h, fatalEntry_illegalOpcode]

/-- Settles O4: the table holds no row for the listed bytes, and the step takes the fatal entry with the byte at PC. -/
theorem illegalOpcodeByte : Obligations.IllegalOpcodeByte := by
  refine ⟨fun b => (descriptor_classes b).1, fun s hrun hbyte => step_of_noDescriptor hrun ?_⟩
  rw [← (descriptor_classes _).1] at hbyte
  exact Option.isNone_iff_eq_none.1 hbyte

theorem step_of_reservedField {s : State} (hrun : s.halted = false) {f : Form}
    (hf : descriptor (read8 s.mem s.pc) = some f) (hfixed : ∀ i, f ≠ .fixed i)
    (h : ∀ t, f.decodeMode (read8 s.mem s.pc) (read8 s.mem (s.pc + 1#24)) t = .reservedField (read8 s.mem s.pc)) :
    step s = .next (illegalOpcodeState s) := by
  obtain ⟨t, hwindow, -⟩ := fetchWindow_head2 s
  simp only [step, hrun, Bool.false_eq_true, if_false, hwindow, decode_of_decodeMode hf hfixed (h t),
    fatalEntry_illegalOpcode]

/-- Settles O5: in each class of formats the setup routine refuses the mode byte before it reads an operand. -/
theorem reservedModeByte : Obligations.ReservedModeByte := by
  rintro s hrun (⟨hclass, h1⟩ | ⟨hclass, h1⟩)
  · rw [← (descriptor_classes _).2.1, Option.any_eq_true] at hclass
    obtain ⟨f, hf, hres⟩ := hclass
    exact step_of_reservedField hrun hf (by rintro i rfl; nomatch hres) (decodeMode_of_reservesHigh hres h1 _)
  · rw [← (descriptor_classes _).2.2, Option.any_eq_true] at hclass
    obtain ⟨f, hf, hsel⟩ := hclass
    exact step_of_reservedField hrun hf (by rintro i rfl; nomatch hsel) (decodeMode_of_selectsControl hsel h1 _)

/-! ## Steps that run an instruction -/

/-- The boundary after an instruction, none after a fatal error (R153, R154). -/
theorem afterExec_next (t : State) : afterExec (.next t) = .next (if t.halted then t else boundary t) := rfl

/-- Settles O6: the step of a running engine is `afterExec` of the decoded instruction. -/
theorem stepRunsDecoded : Obligations.StepRunsDecoded := by
  intro s t i rest hrun hdec hexec
  rw [step_of_decode hrun hdec, hexec, afterExec_next]

/-- The bytes after `byte0` are at most eight (R100). -/
theorem formReads_length {f : Form} {i : Instr} {bytes : List Byte} (h : FormReads f i bytes) : bytes.length ≤ 8 := by
  cases h with
  | g2 mk src dst =>
    have := extLen_le src
    have := extLen_le dst
    simp only [List.length_cons, List.length_append, ext_length]
    omega
  | immB mk o imm | immW mk o imm | immL mk o imm =>
    have := extLen_le o
    simp only [List.length_cons, List.length_append, ext_length, halfBytes, wordBytes, List.length_nil]
    omega
  | q mk n o | one mk o | cregFlg _ _ _ o | cregSp _ _ _ o | cregIntb _ _ _ o | cnd mk c o =>
    have := extLen_le o
    simp only [List.length_cons, ext_length]
    omega
  | fixed | j8 | j16 | j24 => simp only [halfBytes, tripleBytes, List.length_cons, List.length_nil]; omega

theorem encode_length_le (i : Instr) : (encode i).length ≤ maxLength := by
  obtain ⟨b0, f, bytes, hcode, hreads, -⟩ := encode_reads i
  rw [hcode]
  exact Nat.succ_le_succ (formReads_length hreads)

/-- The window begins with an encoding that stands in memory from PC on. -/
theorem fetchWindow_of_standsAtPc {i : Instr} {s : State} (h : StandsAtPc i s) :
    ∃ rest, fetchWindow s = encode i ++ rest := by
  refine ⟨(fetchWindow s).drop (encode i).length, ?_⟩
  have hle := encode_length_le i
  have htake : (fetchWindow s).take (encode i).length = encode i := by
    refine List.ext_getElem ?_ fun k h1 h2 => ?_
    · rw [List.length_take, fetchWindow_length]
      exact Nat.min_eq_left hle
    · rw [List.getElem_take, ← h k h2]
      simp only [fetchWindow, span, List.getElem_map, List.getElem_range]
  calc fetchWindow s = (fetchWindow s).take (encode i).length ++ (fetchWindow s).drop (encode i).length :=
        (List.take_append_drop _ _).symm
    _ = _ := by rw [htake]

/-- Settles O7: the window begins with the stored encoding, which decodes to its instruction. -/
theorem stepRunsStoredBytes : Obligations.StepRunsStoredBytes := by
  intro s t i hrun hstands hexec
  obtain ⟨rest, hwindow⟩ := fetchWindow_of_standsAtPc hstands
  have hdec : decode (fetchWindow s) = .ok i rest := by rw [hwindow, decodeOfEncode]
  exact stepRunsDecoded s t i rest hrun hdec hexec

end Sys2Proof.Machine
end

section
/-! What every instruction can do (40_dispatcher.md R145 to R152, 60_exceptions.md R403, R404): it takes the fatal entry with
the mode code of the first operand it does not take, or it runs to its end. One rule per operation of the execute phase, one
per setup, one lemma per shape; then the statements about all instructions. -/

namespace Sys2Proof.Machine

open Sys2Proof Sys2Proof.Claims Sys2Proof.Laws

/-! ## What the resolver admits -/

theorem resolve_isSome_allow (o : Opnd) (w : Width) (s : State) :
    (resolve o w (lmValue w) .allow s).isSome = (OpndUse.value w true).admits o := by
  cases h : (OpndUse.value w true).admits o with
  | true =>
    obtain ⟨x, hx, -⟩ := resolve_of_admits_allow h s
    rw [hx]
    rfl
  | false =>
    cases w with
    | byte | word => nomatch h
    | long =>
      have hill : legal (lmValue .long) o = false := (legal_lmL o).trans h
      rw [resolve, hill]
      rfl

theorem resolve_isSome_forbid (o : Opnd) (w : Width) (s : State) :
    (resolve o w (lmValue w) .forbid s).isSome = (OpndUse.value w false).admits o := by
  cases h : (OpndUse.value w false).admits o with
  | true =>
    obtain ⟨x, hx, -⟩ := resolve_of_admits_forbid h s
    rw [hx]
    rfl
  | false =>
    cases w with
    | byte =>
      cases o with
      | areg a => simp [resolve, promoted]
      | _ => nomatch h
    | word => nomatch h
    | long =>
      have hill : legal (lmValue .long) o = false := (legal_lmL o).trans h
      rw [resolve, hill]
      rfl

theorem resolvePtr_isSome (o : Opnd) (s : State) : (resolvePtr o lmPtr s).isSome = o.isMem := by
  cases h : o.isMem with
  | true =>
    obtain ⟨ea, hea⟩ := resolvePtr_of_isMem h s
    rw [hea]
    rfl
  | false =>
    rw [resolvePtr, legal_lmPtr, h]
    rfl

theorem resolveBit_isSome (o : Opnd) (bit : BitVec 3) (s : State) : (resolveBit o bit s).isSome = !o.isAReg := by
  cases h : o.isAReg with
  | false =>
    obtain ⟨p, hp, -⟩ := resolveBit_of_not_isAReg h bit s
    rw [hp]
    rfl
  | true =>
    rw [resolveBit, legal_lmBit, h]
    rfl

/-! ## The execute phase -/

/-- What no instruction `i` changes, or only as its tables say, from `s` on. -/
structure Keeps (i : Instr) (s t : State) : Prop where
  halted : t.halted = s.halted
  fault : t.fault = s.fault
  mcra : t.diagMcra = s.diagMcra
  irq : t.irq = s.irq
  acks : t.acks = s.acks
  flg : leavesFlags i = true → t.flg = s.flg
  flgOk : FlgOk s.flg → FlgOk t.flg
  intb : (∀ o, i ≠ .ldcIntb o) → t.intb = s.intb
  bcd : s.diagBcd = true → t.diagBcd = true
  memWf : s.mem.wf = true → t.mem.wf = true

/-- The execute phase of `i` took `s` to `u`: CYC and INHIBIT wait for the end, and so does PC but for a target. -/
structure Executes (i : Instr) (s u : State) : Prop extends Keeps i s u where
  pc : namesTarget i = false → u.pc = s.pc
  cyc : u.cyc = s.cyc
  inhibit : u.inhibit = s.inhibit

theorem Executes.refl (i : Instr) (s : State) : Executes i s s :=
  ⟨⟨rfl, rfl, rfl, rfl, rfl, fun _ => rfl, id, fun _ => rfl, id, id⟩, fun _ => rfl, rfl, rfl⟩

theorem Executes.set {i : Instr} {s u : State} (h : Executes i s u) (y : Acc) (v : Val) : Executes i s (y.set v u) where
  halted := by rw [Acc.set_halted, h.halted]
  fault := by rw [Acc.set_fault, h.fault]
  mcra := by rw [Acc.set_diagMcra, h.mcra]
  irq := by rw [Acc.set_irq, h.irq]
  acks := by rw [Acc.set_acks, h.acks]
  flg hl := by rw [Acc.set_flg, h.flg hl]
  flgOk hok := by rw [Acc.set_flg]; exact h.flgOk hok
  intb hi := by rw [Acc.set_intb, h.intb hi]
  bcd hb := by rw [Acc.set_diagBcd, h.bcd hb]
  memWf hm := Acc.set_mem_wf (h.memWf hm) y v
  pc ht := by rw [Acc.set_pc, h.pc ht]
  cyc := by rw [Acc.set_cyc, h.cyc]
  inhibit := by rw [Acc.set_inhibit, h.inhibit]

theorem Executes.setFlg {i : Instr} {s u : State} (h : Executes i s u) {f : BitVec 16} (hl : leavesFlags i = false)
    (hf : FlgOk u.flg → FlgOk f) : Executes i s { u with flg := f } :=
  { h with
    flg := fun e => by rw [hl] at e; nomatch e
    flgOk := fun hok => hf (h.flgOk hok) }

theorem Executes.setBcd {i : Instr} {s u : State} (h : Executes i s u) (b : Bool) :
    Executes i s { u with diagBcd := u.diagBcd || b } :=
  { h with bcd := fun hb => by simp [h.bcd hb] }

theorem Executes.setSp {i : Instr} {s u : State} (h : Executes i s u) (v : BitVec 32) : Executes i s { u with sp := v } :=
  { h with }

theorem Executes.setIntb {o : Opnd} {s u : State} (h : Executes (.ldcIntb o) s u) (v : BitVec 32) :
    Executes (.ldcIntb o) s { u with intb := v } :=
  { h with intb := fun hi => absurd rfl (hi o) }

theorem Executes.setPc {i : Instr} {s u : State} (h : Executes i s u) (ht : namesTarget i = true) (a : Addr) :
    Executes i s { u with pc := a } :=
  { h with pc := fun e => by rw [ht] at e; nomatch e }

theorem Executes.push {i : Instr} {s u : State} (h : Executes i s u) (w : Width) (v : Val) :
    Executes i s (push w v u) :=
  { h with memWf := fun hm => push_mem_wf (h.memWf hm) w v }

theorem Executes.popState {i : Instr} {s u : State} (h : Executes i s u) (w : Width) : Executes i s (popState w u) :=
  h.setSp _

theorem Executes.enterVector {i : Instr} {s u : State} (h : Executes i s u) (hl : leavesFlags i = false)
    (ht : namesTarget i = true) (l : Option IntLevel) (ret : Addr) (v : BitVec 8) :
    Executes i s (enterVector l ret v u) :=
  (((h.push .word _).push .long _).setFlg hl fun hok => flagsIntEntry_ok hok l).setPc ht _

theorem Executes.leaveVector {i : Instr} {s u : State} (h : Executes i s u) (hl : leavesFlags i = false) :
    Executes i s (leaveVector u).2 :=
  ((h.popState .long).popState .word).setFlg hl fun _ => flagsLoad_ok _

/-! ## The end of an instruction -/

/-- `i` ran from `s` to its end in `t` (R149 to R152). -/
structure Completed (i : Instr) (s t : State) : Prop extends Keeps i s t where
  cyc : t.cyc = s.cyc + (encode i).length + dataAccesses i
  pc : namesTarget i = false → t.pc = nextPc s (encode i).length
  plain : isPrefix i = false → t.sticky = .idle ∧ t.inhibit = s.inhibit
  armed : isPrefix i = true → (∃ v k, t.sticky = .armed v k) ∧ t.inhibit = true

/-- An instruction that does not arm STICKY, with its length and its data accesses. -/
structure Ordinary (i : Instr) (len nacc : Nat) : Prop where
  length : (encode i).length = len
  accesses : dataAccesses i = nacc
  notPrefix : isPrefix i = false

theorem Completed.complete {i : Instr} {s u : State} {target : Addr} {len nacc : Nat} (h : Executes i s u)
    (hi : Ordinary i len nacc) (ht : namesTarget i = true) : Completed i s (complete target len nacc u) :=
  { h with
    cyc := by rw [complete_cyc, h.cyc, hi.length, hi.accesses]
    pc := fun e => by rw [ht] at e; nomatch e
    plain := fun _ => ⟨rfl, h.inhibit⟩
    armed := fun e => by rw [hi.notPrefix] at e; nomatch e }

theorem Completed.advance {i : Instr} {s u : State} {len nacc : Nat} (h : Executes i s u) (hi : Ordinary i len nacc) :
    Completed i s (advance len nacc u) :=
  { h with
    cyc := by rw [advance_cyc, h.cyc, hi.length, hi.accesses]
    pc := fun e => by rw [advance_pc, nextPc, h.pc e, hi.length, nextPc]
    plain := fun _ => ⟨rfl, h.inhibit⟩
    armed := fun e => by rw [hi.notPrefix] at e; nomatch e }

theorem Completed.advanceArmed {i : Instr} {s : State} {v : BitVec 24} {k : StickyKind} {len nacc : Nat}
    (hp : isPrefix i = true) (hlen : (encode i).length = len) (hn : dataAccesses i = nacc) :
    Completed i s (advanceArmed v k len nacc s) :=
  { Executes.refl i s with
    cyc := by rw [advanceArmed_cyc, hlen, hn]
    pc := fun _ => by rw [advanceArmed_pc, hlen]
    plain := fun e => by rw [hp] at e; nomatch e
    armed := fun _ => ⟨⟨v, k, rfl⟩, rfl⟩ }

/-! ## Setup -/

/-- The answer `a` of `i` in `s`, once the setup of all operands but `ops` is done: all of these are admitted and `i` runs to
its end, or the fatal entry reports the first that is not (40_dispatcher.md R147). -/
def Outcome (i : Instr) (ops : List (OpndUse × Opnd)) (s : State) (a : Answer) : Prop :=
  ((ops.all fun p => p.1.admits p.2) = true ∧ ∃ t, a = .next t ∧ Completed i s t) ∨
    ∃ m, ((ops.find? fun p => !(p.1.admits p.2)).map fun p => p.2.mode) = some m ∧
      a = .next (fatalEntry (.illegalAddressingMode m) i.opcode s)

theorem Outcome.done {i : Instr} {s t : State} (h : Completed i s t) : Outcome i [] s (.next t) :=
  .inl ⟨rfl, t, rfl, h⟩

theorem Outcome.admitted {i : Instr} {use : OpndUse} {o : Opnd} {ops : List (OpndUse × Opnd)} {s : State} {a : Answer}
    (ho : use.admits o = true) (h : Outcome i ops s a) : Outcome i ((use, o) :: ops) s a := by
  rcases h with ⟨hall, hrun⟩ | ⟨m, hm, ha⟩
  · exact .inl ⟨by rw [List.all_cons, ho, hall]; rfl, hrun⟩
  · exact .inr ⟨m, by rw [List.find?_cons_of_neg (by simp [ho])]; exact hm, ha⟩

theorem Outcome.refused {i : Instr} {use : OpndUse} {o : Opnd} {ops : List (OpndUse × Opnd)} {s : State}
    (ho : use.admits o = false) :
    Outcome i ((use, o) :: ops) s (.next (fatalEntry (.illegalAddressingMode o.mode) i.opcode s)) :=
  .inr ⟨o.mode, by rw [List.find?_cons_of_pos (by simp [ho])]; rfl, rfl⟩

/-- The promotion a use allows (R174, R175), as the resolver takes it. -/
def promoteOf (promote : Bool) : Promote := if promote then .allow else .forbid

/-- At the widths 16 and 32 nothing is promoted, so a use that allows promotion admits what one that forbids it does. -/
theorem admits_of_wide {w : Width} {promote : Bool} (hw : w = .byte → promote = false) (o : Opnd) :
    (OpndUse.value w promote).admits o = (OpndUse.value w false).admits o := by
  cases w with
  | byte => rw [hw rfl]
  | word | long => rfl

theorem resolve_isSome (o : Opnd) (w : Width) (promote : Bool) (s : State) :
    (resolve o w (lmValue w) (promoteOf promote) s).isSome = (OpndUse.value w promote).admits o := by
  cases promote with
  | true => exact resolve_isSome_allow o w s
  | false => exact resolve_isSome_forbid o w s

/-- One data access where the operand is in memory, none where it is a register (R181, R182). -/
theorem resolve_calls {o : Opnd} {w : Width} {lm : BitVec 16} {p : Promote} {s : State} {x : Acc}
    (h : resolve o w lm p s = some x) : x.calls = inMem o := by
  unfold resolve at h
  split at h
  · split at h
    · nomatch h
    · cases o with
      | dreg r | areg a =>
        obtain ⟨v, -, rfl⟩ := Option.map_eq_some_iff.1 h
        rfl
      | _ =>
        obtain rfl := Option.some.inj h
        rfl
  · nomatch h

theorem outcome_of_resolve {i : Instr} {w : Width} {promote : Bool} {p : Promote} {o : Opnd}
    {ops : List (OpndUse × Opnd)} {s : State} {k : Acc → Answer}
    (hadm : (resolve o w (lmValue w) p s).isSome = (OpndUse.value w promote).admits o)
    (h : ∀ x : Acc, x.calls = inMem o → Outcome i ops s (k x)) :
    Outcome i ((.value w promote, o) :: ops) s (withOpnd i.opcode w p o s k) := by
  rcases withOpnd_cases (rfl : withOpnd i.opcode w p o s k = _) with ⟨x, hx, hk⟩ | ⟨hnone, ha⟩
  · rw [hx] at hadm
    rw [← hk]
    exact .admitted hadm.symm (h x (resolve_calls hx))
  · rw [hnone] at hadm
    rw [ha]
    exact .refused hadm.symm

theorem outcome_withOpnd {i : Instr} {w : Width} (promote : Bool) {o : Opnd} {ops : List (OpndUse × Opnd)} {s : State}
    {k : Acc → Answer} (h : ∀ x : Acc, x.calls = inMem o → Outcome i ops s (k x)) :
    Outcome i ((.value w promote, o) :: ops) s (withOpnd i.opcode w (promoteOf promote) o s k) :=
  outcome_of_resolve (resolve_isSome o w promote s) h

theorem outcome_withOpnd_forbid {i : Instr} {w : Width} {promote : Bool} (hw : w = .byte → promote = false) {o : Opnd}
    {ops : List (OpndUse × Opnd)} {s : State} {k : Acc → Answer}
    (h : ∀ x : Acc, x.calls = inMem o → Outcome i ops s (k x)) :
    Outcome i ((.value w promote, o) :: ops) s (withOpnd i.opcode w .forbid o s k) :=
  outcome_of_resolve ((resolve_isSome_forbid o w s).trans (admits_of_wide hw o).symm) h

theorem outcome_withPtr {i : Instr} {o : Opnd} {ops : List (OpndUse × Opnd)} {s : State} {k : Addr → Answer}
    (h : ∀ ea, Outcome i ops s (k ea)) : Outcome i ((.pointer, o) :: ops) s (withPtr i.opcode o s k) := by
  have hadm := resolvePtr_isSome o s
  rcases withPtr_cases (rfl : withPtr i.opcode o s k = _) with ⟨ea, hea, hk⟩ | ⟨hnone, ha⟩
  · rw [hea] at hadm
    rw [← hk]
    exact .admitted hadm.symm (h ea)
  · rw [hnone] at hadm
    rw [ha]
    exact .refused hadm.symm

theorem resolveBit_calls {o : Opnd} {bit : BitVec 3} {s : State} {p : Acc × Nat} (h : resolveBit o bit s = some p) :
    p.1.calls = inMem o := by
  have hadm := resolveBit_isSome o bit s
  rw [h] at hadm
  obtain ⟨p', hp', hcalls⟩ := resolveBit_of_not_isAReg (by simpa using hadm.symm) bit s
  rwa [← Option.some.inj (hp'.symm.trans h)]

theorem outcome_withBit {i : Instr} {o : Opnd} {bit : BitVec 3} {ops : List (OpndUse × Opnd)} {s : State}
    {k : Acc → Nat → Answer} (h : ∀ (x : Acc) (n : Nat), x.calls = inMem o → Outcome i ops s (k x n)) :
    Outcome i ((.bitBase, o) :: ops) s (withBit i.opcode o bit s k) := by
  have hadm := resolveBit_isSome o bit s
  rcases withBit_cases (rfl : withBit i.opcode o bit s k = _) with ⟨p, hp, hk⟩ | ⟨hnone, ha⟩
  · rw [hp] at hadm
    rw [← hk]
    exact .admitted hadm.symm (h p.1 p.2 (resolveBit_calls hp))
  · rw [hnone] at hadm
    rw [ha]
    exact .refused hadm.symm

/-! ## The shapes -/

section Shapes

variable {i : Instr} {w : Width} {src dst : Opnd} {s : State}

theorem outcome_aluG2 {f : Binary} (hl : leavesFlags i = false)
    (hf : ∀ w a b flg, FlgOk flg → FlgOk (f w a b flg).2)
    (hi : Ordinary i (2 + src.extLen + dst.extLen) (inMem src + 2 * inMem dst)) :
    Outcome i [(.value w true, src), (.value w true, dst)] s (aluG2 i.opcode w f src dst s) :=
  outcome_withOpnd true fun _ hx => outcome_withOpnd true fun y hy => .done <|
    .advance (((Executes.refl i s).setFlg hl (hf _ _ _ _)).set y _) (by rwa [hx, hy])

theorem outcome_testG2 {f : Binary} (hl : leavesFlags i = false)
    (hf : ∀ w a b flg, FlgOk flg → FlgOk (f w a b flg).2)
    (hi : Ordinary i (2 + src.extLen + dst.extLen) (inMem src + inMem dst)) :
    Outcome i [(.value w true, src), (.value w true, dst)] s (testG2 i.opcode w f src dst s) :=
  outcome_withOpnd true fun _ hx => outcome_withOpnd true fun y hy => .done <|
    .advance ((Executes.refl i s).setFlg hl (hf _ _ _ _)) (by rwa [hx, hy])

theorem outcome_moveG2 (hl : leavesFlags i = false)
    (hi : Ordinary i (2 + src.extLen + dst.extLen) (inMem src + inMem dst)) :
    Outcome i [(.value w true, src), (.value w true, dst)] s (moveG2 i.opcode w src dst s) :=
  outcome_withOpnd true fun _ hx => outcome_withOpnd true fun y hy => .done <|
    .advance (((Executes.refl i s).setFlg hl fun h => flagsLogic_ok h _ _).set y _) (by rwa [hx, hy])

theorem outcome_extendG2 {wd : Width} {ext : Width → Val → Val} (hl : leavesFlags i = false)
    (hi : Ordinary i (2 + src.extLen + dst.extLen) (inMem src + inMem dst)) :
    Outcome i [(.value w false, src), (.value wd true, dst)] s (extendG2 i.opcode w wd ext src dst s) :=
  outcome_withOpnd false fun _ hx => outcome_withOpnd true fun y hy => .done <|
    .advance (((Executes.refl i s).setFlg hl fun h => flagsLogic_ok h _ _).set y _) (by rwa [hx, hy])

theorem outcome_decimalG2 {op : DecimalOp} (hl : leavesFlags i = false)
    (hi : Ordinary i (2 + src.extLen + dst.extLen) (inMem src + 2 * inMem dst)) :
    Outcome i [(.value w false, src), (.value w false, dst)] s (decimalG2 i.opcode w op src dst s) :=
  outcome_withOpnd false fun x hx => outcome_withOpnd false fun y hy => .done <|
    .advance ((((Executes.refl i s).setFlg hl fun h => flagsBcd_ok h _ _ _).setBcd _).set y _) (by rwa [hx, hy])

theorem outcome_lea (hi : Ordinary (.lea src dst) (2 + src.extLen + dst.extLen) (inMem dst)) :
    Outcome (.lea src dst) [(.pointer, src), (.value .long true, dst)] s (execLea src dst s) :=
  outcome_withPtr fun _ => outcome_withOpnd true fun y hy => .done <|
    .advance ((Executes.refl _ s).set y _) (by rwa [hy])

theorem outcome_aluImm {f : Binary} {imm : Val} (hl : leavesFlags i = false)
    (hf : ∀ w a b flg, FlgOk flg → FlgOk (f w a b flg).2)
    (hi : Ordinary i (2 + dst.extLen + w.bytes) (2 * inMem dst)) :
    Outcome i [(.value w true, dst)] s (aluImm i.opcode w f dst imm s) :=
  outcome_withOpnd true fun y hy => .done <|
    .advance (((Executes.refl i s).setFlg hl (hf _ _ _ _)).set y _) (by rwa [hy])

theorem outcome_testImm {f : Binary} {imm : Val} (hl : leavesFlags i = false)
    (hf : ∀ w a b flg, FlgOk flg → FlgOk (f w a b flg).2) (hi : Ordinary i (2 + dst.extLen + w.bytes) (inMem dst)) :
    Outcome i [(.value w true, dst)] s (testImm i.opcode w f dst imm s) :=
  outcome_withOpnd true fun y hy => .done <| .advance ((Executes.refl i s).setFlg hl (hf _ _ _ _)) (by rwa [hy])

theorem outcome_moveImm {imm : Val} (hl : leavesFlags i = false)
    (hi : Ordinary i (2 + dst.extLen + w.bytes) (inMem dst)) :
    Outcome i [(.value w true, dst)] s (moveImm i.opcode w dst imm s) :=
  outcome_withOpnd true fun y hy => .done <|
    .advance (((Executes.refl i s).setFlg hl fun h => flagsLogic_ok h _ _).set y _) (by rwa [hy])

theorem outcome_aluOne {promote : Bool} {f : Unary} (hl : leavesFlags i = false)
    (hf : ∀ w a flg, FlgOk flg → FlgOk (f w a flg).2) (hi : Ordinary i (2 + dst.extLen) (2 * inMem dst)) :
    Outcome i [(.value w promote, dst)] s (aluOne i.opcode w (promoteOf promote) f dst s) :=
  outcome_withOpnd promote fun y hy => .done <|
    .advance (((Executes.refl i s).setFlg hl (hf _ _ _)).set y _) (by rwa [hy])

theorem outcome_readOne {promote : Bool} (hw : w = .byte → promote = false) {nacc : Nat} {f : Val → State → State}
    (hf : ∀ v, Executes i s (f v s)) (hi : Ordinary i (2 + src.extLen) (inMem src + nacc)) :
    Outcome i [(.value w promote, src)] s (readOne i.opcode w src nacc f s) :=
  outcome_withOpnd_forbid hw fun x hx => .done <| .advance (hf _) (by rwa [hx])

theorem outcome_writeOne {promote : Bool} (hw : w = .byte → promote = false) {nacc : Nat} {v : Val} {s1 : State}
    (h1 : Executes i s s1) (hi : Ordinary i (2 + dst.extLen) (inMem dst + nacc)) :
    Outcome i [(.value w promote, dst)] s (writeOne i.opcode w dst nacc v s1 s) :=
  outcome_withOpnd_forbid hw fun y hy => .done <| .advance (h1.set y _) (by rwa [hy])

theorem outcome_bitWrite {b0 : Byte} {bit : BitVec 3} {f : Val → Nat → Val} (hb : i.opcode = b0)
    (hi : Ordinary i (2 + dst.extLen) (2 * inMem dst)) :
    Outcome i [(.bitBase, dst)] s (bitWrite b0 bit f dst s) := by
  subst hb
  exact outcome_withBit fun y _ hy => .done <| .advance ((Executes.refl i s).set y _) (by rwa [hy])

theorem outcome_btst {bit : BitVec 3} (hi : Ordinary (.btst bit src) (2 + src.extLen) (inMem src)) :
    Outcome (.btst bit src) [(.bitBase, src)] s (execBtst bit src s) :=
  outcome_withBit fun y _ hy => .done <|
    .advance ((Executes.refl _ s).setFlg rfl fun h => flagsLogic_ok h _ _) (by rwa [hy])

theorem outcome_prefixOne {scale : BitVec 24} {kind : StickyKind} (hp : isPrefix i = true)
    (hlen : (encode i).length = 2 + src.extLen) (hn : dataAccesses i = inMem src) :
    Outcome i [(.value w true, src)] s (prefixOne i.opcode w scale kind src s) :=
  outcome_withOpnd true fun _ hx => .done <| .advanceArmed hp hlen (hn.trans hx.symm)

theorem outcome_flagBit {f : Flag} {t : Bool} (hl : leavesFlags i = false) (hi : Ordinary i 1 0) :
    Outcome i [] s (flagBit f t s) :=
  .done <| .advance ((Executes.refl i s).setFlg hl fun h => setFlag_ok h f t) hi

end Shapes

theorem addOp_ok (w : Width) (a b : Val) (flg : BitVec 16) (h : FlgOk flg) : FlgOk (addOp w a b flg).2 :=
  flagsArith_ok h _ _ _ _ _

theorem adcOp_ok (w : Width) (a b : Val) (flg : BitVec 16) (h : FlgOk flg) : FlgOk (adcOp w a b flg).2 :=
  flagsArith_ok h _ _ _ _ _

theorem subOp_ok (w : Width) (a b : Val) (flg : BitVec 16) (h : FlgOk flg) : FlgOk (subOp w a b flg).2 :=
  flagsArith_ok h _ _ _ _ _

theorem sbbOp_ok (w : Width) (a b : Val) (flg : BitVec 16) (h : FlgOk flg) : FlgOk (sbbOp w a b flg).2 :=
  flagsArith_ok h _ _ _ _ _

theorem andOp_ok (w : Width) (a b : Val) (flg : BitVec 16) (h : FlgOk flg) : FlgOk (andOp w a b flg).2 :=
  flagsLogic_ok h _ _

theorem orOp_ok (w : Width) (a b : Val) (flg : BitVec 16) (h : FlgOk flg) : FlgOk (orOp w a b flg).2 :=
  flagsLogic_ok h _ _

theorem xorOp_ok (w : Width) (a b : Val) (flg : BitVec 16) (h : FlgOk flg) : FlgOk (xorOp w a b flg).2 :=
  flagsLogic_ok h _ _

theorem encImm_length' (b0 : Byte) (o : Opnd) (imm : List Byte) (w : Width) (h : imm.length = w.bytes) :
    (encImm b0 o imm).length = 2 + o.extLen + w.bytes := by
  rw [encImm_length, h]
  omega

/-! ## Every instruction -/

/-- What every instruction answers, by its shape. -/
theorem exec_outcome (i : Instr) (s : State) : Outcome i i.operands s (exec i s) := by
  cases i with
  | nop => exact .done <| .advance (.refl _ s) ⟨rfl, rfl, rfl⟩
  | fsetC | fsetZ | fsetS | fsetO | fsetI | fclrC | fclrZ | fclrS | fclrO | fclrI =>
    exact outcome_flagBit rfl ⟨rfl, rfl, rfl⟩
  | movB src dst | movW src dst | movL src dst => exact outcome_moveG2 rfl ⟨encG2_length .., rfl, rfl⟩
  | addB src dst | addW src dst | addL src dst => exact outcome_aluG2 rfl addOp_ok ⟨encG2_length .., rfl, rfl⟩
  | adcB src dst | adcW src dst | adcL src dst => exact outcome_aluG2 rfl adcOp_ok ⟨encG2_length .., rfl, rfl⟩
  | subB src dst | subW src dst | subL src dst => exact outcome_aluG2 rfl subOp_ok ⟨encG2_length .., rfl, rfl⟩
  | sbbB src dst | sbbW src dst | sbbL src dst => exact outcome_aluG2 rfl sbbOp_ok ⟨encG2_length .., rfl, rfl⟩
  | cmpB src dst | cmpW src dst | cmpL src dst => exact outcome_testG2 rfl subOp_ok ⟨encG2_length .., rfl, rfl⟩
  | andB src dst | andW src dst | andL src dst => exact outcome_aluG2 rfl andOp_ok ⟨encG2_length .., rfl, rfl⟩
  | orB src dst | orW src dst | orL src dst => exact outcome_aluG2 rfl orOp_ok ⟨encG2_length .., rfl, rfl⟩
  | xorB src dst | xorW src dst | xorL src dst => exact outcome_aluG2 rfl xorOp_ok ⟨encG2_length .., rfl, rfl⟩
  | tstB src dst | tstW src dst | tstL src dst => exact outcome_testG2 rfl andOp_ok ⟨encG2_length .., rfl, rfl⟩
  | daddB src dst | daddW src dst | dsubB src dst | dsubW src dst =>
    exact outcome_decimalG2 rfl ⟨encG2_length .., rfl, rfl⟩
  | extsB src dst | extsW src dst | extzB src dst | extzW src dst =>
    exact outcome_extendG2 rfl ⟨encG2_length .., rfl, rfl⟩
  | lea src dst => exact outcome_lea ⟨encG2_length .., rfl, rfl⟩
  | movBImm dst imm | movWImm dst imm | movLImm dst imm =>
    exact outcome_moveImm rfl ⟨encImm_length' _ _ _ _ rfl, rfl, rfl⟩
  | addBImm dst imm | addWImm dst imm | addLImm dst imm =>
    exact outcome_aluImm rfl addOp_ok ⟨encImm_length' _ _ _ _ rfl, rfl, rfl⟩
  | subBImm dst imm | subWImm dst imm | subLImm dst imm =>
    exact outcome_aluImm rfl subOp_ok ⟨encImm_length' _ _ _ _ rfl, rfl, rfl⟩
  | cmpBImm dst imm | cmpWImm dst imm | cmpLImm dst imm =>
    exact outcome_testImm rfl subOp_ok ⟨encImm_length' _ _ _ _ rfl, rfl, rfl⟩
  | andBImm dst imm | andWImm dst imm | andLImm dst imm =>
    exact outcome_aluImm rfl andOp_ok ⟨encImm_length' _ _ _ _ rfl, rfl, rfl⟩
  | orBImm dst imm | orWImm dst imm | orLImm dst imm =>
    exact outcome_aluImm rfl orOp_ok ⟨encImm_length' _ _ _ _ rfl, rfl, rfl⟩
  | xorBImm dst imm | xorWImm dst imm | xorLImm dst imm =>
    exact outcome_aluImm rfl xorOp_ok ⟨encImm_length' _ _ _ _ rfl, rfl, rfl⟩
  | tstBImm dst imm | tstWImm dst imm | tstLImm dst imm =>
    exact outcome_testImm rfl andOp_ok ⟨encImm_length' _ _ _ _ rfl, rfl, rfl⟩
  | addqB n dst | addqW n dst | addqL n dst =>
    exact outcome_aluOne (promote := true) rfl (fun _ _ _ => addOp_ok _ _ _ _) ⟨encOne_length .., rfl, rfl⟩
  | negB dst | negW dst | negL dst =>
    exact outcome_aluOne (promote := true) rfl (fun _ _ _ => subOp_ok _ _ _ _) ⟨encOne_length .., rfl, rfl⟩
  | notB dst | notW dst | notL dst =>
    exact outcome_aluOne (promote := true) rfl (fun _ _ _ h => flagsLogic_ok h _ _) ⟨encOne_length .., rfl, rfl⟩
  | shlB n dst | shlW n dst | shlL n dst | shrB n dst | shrW n dst | shrL n dst | sarB n dst | sarW n dst | sarL n dst
  | rolB n dst | rolW n dst | rolL n dst | rorB n dst | rorW n dst | rorL n dst =>
    exact outcome_aluOne (promote := false) rfl (fun _ _ _ h => flagsLogic_ok h _ _) ⟨encOne_length .., rfl, rfl⟩
  | pushB src | pushW src | pushL src =>
    exact outcome_readOne (by decide) (fun v => (Executes.refl _ s).push _ v) ⟨encOne_length .., rfl, rfl⟩
  | ldcFlg src =>
    exact outcome_readOne (f := fun v t => { t with flg := flagsLoad (v.setWidth 16) }) (by decide)
      (fun v => (Executes.refl _ s).setFlg rfl fun _ => flagsLoad_ok _) ⟨encOne_length .., rfl, rfl⟩
  | ldcSp src =>
    exact outcome_readOne (f := fun v t => { t with sp := v }) (by decide) (fun v => (Executes.refl _ s).setSp v)
      ⟨encOne_length .., rfl, rfl⟩
  | ldcIntb src =>
    exact outcome_readOne (f := fun v t => { t with intb := v }) (by decide) (fun v => (Executes.refl _ s).setIntb v)
      ⟨encOne_length .., rfl, rfl⟩
  | popB dst | popW dst | popL dst =>
    exact outcome_writeOne (by decide) ((Executes.refl _ s).popState _) ⟨encOne_length .., rfl, rfl⟩
  | stcFlg dst | stcSp dst | stcIntb dst | scCnd c dst =>
    exact outcome_writeOne (by decide) (.refl _ s) ⟨encOne_length .., rfl, rfl⟩
  | pusha src =>
    exact outcome_withPtr fun ea => .done <| .advance ((Executes.refl _ s).push .long _) ⟨encOne_length .., rfl, rfl⟩
  | jmpi src =>
    exact outcome_withPtr fun ea => .done <| .complete (.refl _ s) ⟨encOne_length .., rfl, rfl⟩ rfl
  | jsri src =>
    exact outcome_withPtr fun ea => .done <|
      .complete ((Executes.refl _ s).push .long _) ⟨encOne_length .., rfl, rfl⟩ rfl
  | indexbB src | indexbW src | indexwB src | indexwW src | indexlB src | indexlW src | bitindexB src
  | bitindexW src =>
    exact outcome_prefixOne rfl (encOne_length ..) rfl
  | bset bit dst => exact outcome_bitWrite (b0 := 0x16#5 ++ bit) rfl ⟨encOne_length .., rfl, rfl⟩
  | bclr bit dst => exact outcome_bitWrite (b0 := 0x17#5 ++ bit) rfl ⟨encOne_length .., rfl, rfl⟩
  | bnot bit dst =>
    exact outcome_bitWrite (b0 := 0x18#5 ++ bit) (f := fun v k => v ^^^ (1#32 <<< k)) rfl ⟨encOne_length .., rfl, rfl⟩
  | bmCnd bit c dst => exact outcome_bitWrite (b0 := 0x1A#5 ++ bit) rfl ⟨encOne_length .., rfl, rfl⟩
  | btst bit src => exact outcome_btst ⟨encOne_length .., rfl, rfl⟩
  | jCnd c rel | jmpW rel | jmpA target => exact .done <| .complete (.refl _ s) ⟨rfl, rfl, rfl⟩ rfl
  | jsrW rel | jsrA target =>
    exact .done <| .complete ((Executes.refl _ s).push .long _) ⟨rfl, rfl, rfl⟩ rfl
  | rts => exact .done <| .complete ((Executes.refl _ s).popState .long) ⟨rfl, rfl, rfl⟩ rfl
  | reit => exact .done <| .complete ((Executes.refl _ s).leaveVector rfl) ⟨rfl, rfl, rfl⟩ rfl
  | int v => exact .done <| .complete ((Executes.refl _ s).enterVector rfl rfl _ _ _) ⟨rfl, rfl, rfl⟩ rfl

/-- A well-formed instruction runs to its end. -/
theorem exec_of_wellFormed {i : Instr} (h : i.wellFormed = true) (s : State) :
    ∃ t, exec i s = .next t ∧ Completed i s t := by
  rcases exec_outcome i s with ⟨-, hrun⟩ | ⟨m, hm, -⟩
  · exact hrun
  · obtain ⟨p, hp, -⟩ := Option.map_eq_some_iff.1 hm
    have hrefused := List.find?_some hp
    rw [List.all_eq_true.1 h p (List.mem_of_find?_eq_some hp)] at hrefused
    nomatch hrefused

/-- An instruction with an operand form it does not take goes to the fatal entry. -/
theorem exec_of_firstIllegalMode {i : Instr} {m : BitVec 4} (h : i.firstIllegalMode = some m) (s : State) :
    exec i s = .next (fatalEntry (.illegalAddressingMode m) i.opcode s) := by
  rcases exec_outcome i s with ⟨hall, -⟩ | ⟨m', hm', ha⟩
  · obtain ⟨p, hp, -⟩ := Option.map_eq_some_iff.1 h
    have hrefused := List.find?_some hp
    rw [List.all_eq_true.1 hall p (List.mem_of_find?_eq_some hp)] at hrefused
    nomatch hrefused
  · rw [ha, ← Option.some.inj (h.symm.trans hm')]

/-- Everything an instruction can do. -/
theorem exec_cases {i : Instr} {s t : State} (h : exec i s = .next t) :
    Completed i s t ∨ ∃ m, t = fatalEntry (.illegalAddressingMode m) i.opcode s := by
  rcases exec_outcome i s with ⟨-, t', ht', hrun⟩ | ⟨m, -, ha⟩
  · obtain rfl : t' = t := by simpa using ht'.symm.trans h
    exact .inl hrun
  · exact .inr ⟨m, by simpa using (ha.symm.trans h).symm⟩

theorem nextPc_toNat (s : State) (len : Nat) : (nextPc s len).toNat = (s.pc.toNat + len) % 2 ^ 24 := by
  simp [nextPc]

/-! ## The statements about all instructions -/

/-- Settles O16. -/
theorem wellFormedCompletes : Obligations.WellFormedCompletes := by
  intro i s hwf
  obtain ⟨t, hexec, hrun⟩ := exec_of_wellFormed hwf s
  refine ⟨t, hexec, hrun.cyc, fun ht => ?_, hrun.plain, hrun.armed, hrun.halted, hrun.fault, hrun.mcra, hrun.irq,
    hrun.acks⟩
  rw [hrun.pc ht, nextPc_toNat]

/-- Settles O17. -/
theorem illFormedHalts : Obligations.IllFormedHalts := by
  intro i s mode hmode
  obtain ⟨b0, f, bytes, hcode, -, -⟩ := encode_reads i
  refine ⟨b0, bytes, hcode, ?_⟩
  rw [exec_of_firstIllegalMode hmode, Instr.opcode, hcode]
  rfl

/-- Settles O18. -/
theorem flagsUntouched : Obligations.FlagsUntouched := by
  intro i s t hl hexec
  rcases exec_cases hexec with hrun | ⟨m, rfl⟩
  · exact hrun.flg hl
  · rfl

/-- Settles O19. -/
theorem controlStateWriters : Obligations.ControlStateWriters := by
  intro i s t hexec
  rcases exec_cases hexec with hrun | ⟨m, rfl⟩
  · exact ⟨hrun.intb, hrun.mcra, hrun.bcd, by rw [hrun.cyc]; omega⟩
  · exact ⟨fun _ => rfl, rfl, id, Nat.le_refl _⟩

end Sys2Proof.Machine
end

section
/-! Memory as numbers: the bytes of a read and of a write in the order of R74. -/

namespace Sys2Proof.Machine

open Sys2Proof Sys2Proof.Claims

theorem read16_toNat (m : Memory) (a : Addr) :
    (read16 m a).toNat = (read8 m a).toNat + 2 ^ 8 * (read8 m (a + 1#24)).toNat := toNat_append_eq_add _ _

theorem read24_toNat (m : Memory) (a : Addr) :
    (read24 m a).toNat = (read16 m a).toNat + 2 ^ 16 * (read8 m (a + 2#24)).toNat := by
  rw [read24, BitVec.append_assoc]
  exact toNat_append_eq_add (read8 m (a + 2#24)) (read16 m a)

theorem read32_toNat (m : Memory) (a : Addr) :
    (read32 m a).toNat = (read16 m a).toNat + 2 ^ 16 * (read16 m (a + 2#24)).toNat := by
  rw [read32_eq_append]
  exact toNat_append_eq_add _ _

theorem read8_memWrite_byte {m : Memory} (h : m.wf = true) (w : Width) (a : Addr) (v : Val) {k : Nat}
    (hk : k < w.bytes) :
    (read8 (memWrite w m a v) (a + BitVec.ofNat 24 k)).toNat = v.toNat / 2 ^ (8 * k) % 2 ^ 8 := by
  cases w with
  | byte =>
    obtain rfl : k = 0 := by simpa [Width.bytes] using hk
    simp [memWrite, read8_write8 h]
  | word =>
    have hk : k < 2 := hk
    interval_cases k
    · simp [memWrite, read8_write16 h]
    · simp [memWrite, read8_write16 h]
      omega
  | long =>
    have hk : k < 4 := hk
    interval_cases k <;> simp [memWrite, read8_write32 h, Nat.shiftRight_eq_div_pow]

/-- Settles O20. -/
theorem memoryLittleEndian : Obligations.MemoryLittleEndian := fun m w a v h =>
  ⟨fun _ hk => read8_memWrite_byte h w a v hk, fun b hb => read8_memWrite_other h w a b v hb, read16_toNat m a,
    read24_toNat m a, read32_toNat m a⟩

/-- The address in a 32-bit word is its three low bytes. -/
theorem lowAddr_toNat (v : BitVec 32) : (lowAddr v).toNat = v.toNat % 2 ^ 24 := BitVec.toNat_setWidth ..

theorem lowAddr_read32_toNat (m : Memory) (a : Addr) :
    (lowAddr (read32 m a)).toNat =
      (read8 m a).toNat + 2 ^ 8 * (read8 m (a + 1#24)).toNat + 2 ^ 16 * (read8 m (a + 2#24)).toNat := by
  have h0 := (read8 m a).isLt
  have h1 := (read8 m (a + 1#24)).isLt
  have h2 := (read8 m (a + 2#24)).isLt
  rw [lowAddr_toNat, read32_toNat, read16_toNat, read16_toNat]
  omega

end Sys2Proof.Machine
end

section
/-! What the boundary check and a whole step do (40_dispatcher.md R141 to R159, 60_exceptions.md R404 to R414). -/

namespace Sys2Proof.Machine

open Sys2Proof Sys2Proof.Claims

/-! ## The boundary check -/

/-- The boundary check touches no latch but INHIBIT, neither STICKY nor CYC, and acknowledges at most one request. -/
structure BoundaryKeeps (s t : State) : Prop where
  inhibit : t.inhibit = false
  halted : t.halted = s.halted
  fault : t.fault = s.fault
  sticky : t.sticky = s.sticky
  cyc : t.cyc = s.cyc
  acks : t.acks = s.acks ∨ ∃ r, t.acks = s.acks ++ [r]
  memWf : s.mem.wf = true → t.mem.wf = true
  flgOk : FlgOk s.flg → FlgOk t.flg

theorem boundary_keeps (s : State) : BoundaryKeeps s (boundary s) := by
  rcases boundary_cases s with ⟨-, h⟩ | ⟨hi, h⟩ | ⟨hi, r, -, -, h⟩
  · rw [h]
    exact ⟨rfl, rfl, rfl, rfl, rfl, .inl rfl, id, id⟩
  · rw [h]
    exact ⟨hi, rfl, rfl, rfl, rfl, .inl rfl, id, id⟩
  · rw [h]
    exact ⟨hi, rfl, rfl, rfl, rfl, .inr ⟨r, rfl⟩,
      fun hm => enterVector_mem_wf (s := { s with irq := s.irq.tail }) hm (some r.level) s.pc r.vector,
      fun hf => flagsIntEntry_ok hf _⟩

theorem boundary_of_inhibit {s : State} (h : s.inhibit = true) : boundary s = { s with inhibit := false } := by
  rw [boundary, if_pos h]

/-- A boundary that samples (R156), by the sample. -/
theorem boundary_of_sample {s : State} (hi : s.inhibit = false) {q : List (Option Irq)} {r : Option Irq}
    (hq : s.irq = r :: q) :
    boundary s =
      match r with
      | some r => if accepts r s.flg then interruptEntry r { s with irq := q } else { s with irq := q }
      | none => { s with irq := q } := by
  simp only [boundary, hi, Bool.false_eq_true, if_false, nextSample, hq, List.tail_cons]
  cases r <;> rfl

theorem bits_toNat (l : IntLevel) : l.bits.toNat = levelNumber l := by cases l <;> rfl

/-- The acceptance test of R411 on numbers. -/
theorem accepts_iff (r : Irq) (flg : BitVec 16) :
    accepts r flg = true ↔ getFlag .i flg = true ∧ (getIpl flg).toNat < levelNumber r.level := by
  rw [accepts, Bool.and_eq_true, decide_eq_true_iff, BitVec.lt_def, bits_toNat]

theorem boundary_of_accepted {s : State} (hi : s.inhibit = false) {q : List (Option Irq)} {r : Irq}
    (hq : s.irq = some r :: q) (hflag : getFlag .i s.flg = true) (hlevel : (getIpl s.flg).toNat < levelNumber r.level) :
    boundary s = interruptEntry r { s with irq := q } := by
  rw [boundary_of_sample hi hq]
  exact if_pos ((accepts_iff r s.flg).2 ⟨hflag, hlevel⟩)

theorem boundary_of_ignored {s : State} (hi : s.inhibit = false) {q : List (Option Irq)} {r : Irq}
    (hq : s.irq = some r :: q) (h : getFlag .i s.flg = false ∨ levelNumber r.level ≤ (getIpl s.flg).toNat) :
    boundary s = { s with irq := q } := by
  rw [boundary_of_sample hi hq]
  refine if_neg fun hacc => ?_
  obtain ⟨hflag, hlevel⟩ := (accepts_iff r s.flg).1 hacc
  rcases h with h | h
  · rw [h] at hflag
    nomatch hflag
  · omega

theorem boundary_irq {s : State} (hi : s.inhibit = false) : (boundary s).irq = s.irq.tail := by
  rcases boundary_cases s with ⟨h, -⟩ | ⟨-, h⟩ | ⟨-, r, -, -, h⟩
  · rw [hi] at h
    nomatch h
  · rw [h]
  · rw [h]
    rfl

theorem boundary_of_no_samples {s : State} (hi : s.inhibit = false) (hq : s.irq = []) : boundary s = s := by
  cases s
  cases hi
  cases hq
  rfl

/-- Settles O13. -/
theorem boundaryCheck : Obligations.BoundaryCheck := by
  refine ⟨fun s hi => boundary_of_inhibit hi, fun s hi => ⟨boundary_irq hi, fun r q hq hflag hlevel => ?_,
    fun r q hq h => boundary_of_ignored hi hq h, fun q hq => boundary_of_sample hi hq, boundary_of_no_samples hi⟩⟩
  rw [boundary_of_accepted hi hq hflag hlevel]
  rfl

/-! ## The invariant -/

theorem inv_iff (s : State) :
    s.Inv = true ↔ s.mem.wf = true ∧ FlgOk s.flg ∧ s.inhibit = false ∧ s.halted = s.fault.isSome := by
  simp only [State.Inv, Bool.and_eq_true, decide_eq_true_iff, Bool.not_eq_true', beq_iff_eq, FlgOk, and_assoc]

theorem inv_fatalEntry {s : State} (h : s.Inv = true) (k : FatalKind) (b0 : Byte) : (fatalEntry k b0 s).Inv = true := by
  obtain ⟨hmem, hflg, hinhibit, -⟩ := (inv_iff s).1 h
  exact (inv_iff _).2 ⟨hmem, hflg, hinhibit, rfl⟩

/-- The boundary check after an instruction that ran to its end. -/
theorem inv_boundary_of_completed {i : Instr} {s t : State} (h : s.Inv = true) (hrun : Completed i s t) :
    (boundary t).Inv = true := by
  obtain ⟨hmem, hflg, -, hlatch⟩ := (inv_iff s).1 h
  have hb := boundary_keeps t
  exact (inv_iff _).2 ⟨hb.memWf (hrun.memWf hmem), hb.flgOk (hrun.flgOk hflg), hb.inhibit,
    by rw [hb.halted, hb.fault, hrun.halted, hrun.fault, hlatch]⟩

/-! ## A whole step -/

/-- The fatal entry records the byte at PC, since the window begins with the encoding of what it decodes to. -/
theorem opcode_of_decode {s : State} {i : Instr} {rest : List Byte} (h : decode (fetchWindow s) = .ok i rest) :
    i.opcode = read8 s.mem s.pc := by
  obtain ⟨b0, f, bytes, hcode, -, -⟩ := encode_reads i
  obtain ⟨t, hwindow, -⟩ := fetchWindow_head s
  have hstream := encodeOfDecode _ _ _ h
  rw [hwindow, hcode] at hstream
  rw [Instr.opcode, hcode]
  exact (List.cons.inj hstream).1.symm

/-- A decoder's answer that, where it refuses, names `b0`. -/
def RefusesAt (b0 : Byte) : Decoded → Prop
  | .ok _ _ => True
  | .truncated => True
  | .noDescriptor b => b = b0
  | .reservedField b => b = b0

theorem refusesAt_build {α : Type} (b0 : Byte) (mk : α → Instr) (r : Option (α × List Byte)) :
    RefusesAt b0 (.build mk r) := by
  cases r <;> trivial

theorem refusesAt_decodeImm {n : Nat} (take : List Byte → Option (BitVec n × List Byte)) (mk : Opnd → BitVec n → Instr)
    (b0 b1 : Byte) (t : List Byte) : RefusesAt b0 (decodeImm take mk b0 b1 t) := by
  unfold decodeImm
  split
  · split
    · exact refusesAt_build _ _ _
    · trivial
  · rfl

theorem refusesAt_decodeMode (f : Form) (b0 b1 : Byte) (t : List Byte) : RefusesAt b0 (f.decodeMode b0 b1 t) := by
  cases f with
  | fixed i => trivial
  | g2 mk =>
    simp only [Form.decodeMode]
    split
    · exact refusesAt_build _ _ _
    · trivial
  | immB mk | immW mk | immL mk => exact refusesAt_decodeImm _ _ _ _ _
  | q mk | cnd mk => exact refusesAt_build _ _ _
  | j8 mk => exact refusesAt_build b0 mk (takeByte (b1 :: t))
  | j16 mk => exact refusesAt_build b0 mk (takeHalf (b1 :: t))
  | j24 mk => exact refusesAt_build b0 mk (takeTriple (b1 :: t))
  | one mk =>
    simp only [Form.decodeMode]
    split
    · exact refusesAt_build _ _ _
    · rfl
  | creg flg sp intb =>
    simp only [Form.decodeMode]
    split
    · exact refusesAt_build _ _ _
    · exact refusesAt_build _ _ _
    · exact refusesAt_build _ _ _
    · rfl

theorem refusesAt_decode (b0 : Byte) (t : List Byte) : RefusesAt b0 (decode (b0 :: t)) := by
  simp only [decode]
  split
  · rfl
  · trivial
  · split
    · trivial
    · exact refusesAt_decodeMode _ _ _ _

theorem byte_of_refused {s : State} {b0 : Byte}
    (h : decode (fetchWindow s) = .noDescriptor b0 ∨ decode (fetchWindow s) = .reservedField b0) :
    b0 = read8 s.mem s.pc := by
  obtain ⟨t, hwindow, -⟩ := fetchWindow_head s
  have hat := refusesAt_decode (read8 s.mem s.pc) t
  rw [hwindow] at h
  rcases h with h | h
  · rwa [h] at hat
  · rwa [h] at hat

/-- Everything a step of a running engine can do: an instruction that runs to its end and then the boundary check, or the
fatal entry with the byte at PC. -/
theorem step_of_running {s : State} (hrun : s.halted = false) :
    (∃ i t, Completed i s t ∧ step s = .next (boundary t)) ∨
      ∃ k, step s = .next (fatalEntry k (read8 s.mem s.pc) s) := by
  rcases step_cases s with ⟨hhalted, -⟩ | ⟨-, ⟨i, rest, hdec, hstep⟩ | ⟨b0, hdec, hstep⟩ | ⟨hdec, -⟩⟩
  · rw [hrun] at hhalted
    nomatch hhalted
  · rcases exec_outcome i s with ⟨-, t, ht, hi⟩ | ⟨m, -, ha⟩
    · refine .inl ⟨i, t, hi, ?_⟩
      rw [hstep, ht, afterExec_next_of_running (by rw [hi.halted, hrun])]
    · refine .inr ⟨.illegalAddressingMode m, ?_⟩
      rw [hstep, ha, opcode_of_decode hdec]
      rfl
  · exact .inr ⟨.illegalOpcode, by rw [hstep, byte_of_refused hdec]⟩
  · exact absurd hdec (decode_fetchWindow_ne_truncated s)

theorem step_of_halted {s : State} (h : s.halted = true) : step s = .next s := by
  rw [step, if_pos h]

/-- Settles O10: nothing while halted; else the fatal entry records the fault, or the instruction and the boundary check
each keep their part of the invariant. -/
theorem stepKeepsInv : Obligations.StepKeepsInv := by
  intro s t hinv hstep
  cases hhalt : s.halted with
  | true =>
    obtain rfl : s = t := by simpa [step_of_halted hhalt] using hstep
    exact hinv
  | false =>
    rcases step_of_running hhalt with ⟨i, u, hrun, h⟩ | ⟨k, h⟩
    · obtain rfl : boundary u = t := by simpa [h] using hstep
      exact inv_boundary_of_completed hinv hrun
    · obtain rfl : fatalEntry k (read8 s.mem s.pc) s = t := by simpa [h] using hstep
      exact inv_fatalEntry hinv _ _

/-- Settles O11. -/
theorem resetInv : Obligations.ResetInv := by
  exact (inv_iff _).2 ⟨reset_mem_wf, flgOk_reset, rfl, rfl⟩

theorem encode_length_pos (i : Instr) : 1 ≤ (encode i).length := by
  obtain ⟨b0, f, bytes, hcode, -, -⟩ := encode_reads i
  rw [hcode]
  exact Nat.succ_le_succ (Nat.zero_le _)

/-- Settles O8. -/
theorem stepAnswersNext : Obligations.StepAnswersNext := by
  intro s
  cases hhalt : s.halted with
  | true =>
    have hstep := step_of_halted hhalt
    exact ⟨s, .halted, hstep, by rw [dispatch_of_step hstep, returned_of_halted hhalt], fun _ => ⟨rfl, rfl⟩, nofun⟩
  | false =>
    rcases step_of_running hhalt with ⟨i, u, hrun, hstep⟩ | ⟨k, hstep⟩
    · have hb := boundary_keeps u
      have hlive : (boundary u).halted = false := by rw [hb.halted, hrun.halted, hhalt]
      refine ⟨_, .ok, hstep, by rw [dispatch_of_step hstep, returned_of_running hhalt hlive], nofun,
        fun _ => .inl ⟨rfl, hlive, by rw [hb.fault, hrun.fault], ?_, by rw [← hrun.acks]; exact hb.acks⟩⟩
      have hlen := encode_length_pos i
      rw [hb.cyc, hrun.cyc]
      omega
    · exact ⟨_, .fault k, hstep, by rw [dispatch_of_step hstep, returned_of_fatal hhalt], nofun, fun _ => .inr ⟨k, rfl, rfl⟩⟩

/-- Settles O15. -/
theorem stickyTransitions : Obligations.StickyTransitions := by
  intro s i rest hrun hinhibit hdec hwf
  obtain ⟨t, hexec, hi⟩ := exec_of_wellFormed hwf s
  have hb := boundary_keeps t
  refine ⟨boundary t, ?_, hb.inhibit, fun hp => ?_, fun hp => ?_⟩
  · rw [step_of_decode hrun hdec, hexec, afterExec_next_of_running (by rw [hi.halted, hrun])]
  · rw [hb.sticky, (hi.plain hp).1]
  · obtain ⟨harmed, hinh⟩ := hi.armed hp
    rw [boundary_of_inhibit hinh]
    exact ⟨harmed, hi.irq, hi.acks⟩

/-- Settles O9. -/
theorem haltedDoesNothing : Obligations.HaltedDoesNothing := fun _ h => ⟨step_of_halted h, rfl⟩

/-- Settles O12. -/
theorem resetValues : Obligations.ResetValues := by
  refine ⟨fun s => ⟨_, rfl, rfl, rfl, rfl, rfl, rfl, rfl, rfl, rfl, rfl, rfl, rfl, rfl, rfl, rfl, rfl, rfl, ?_, rfl, rfl,
    rfl, rfl⟩, rfl⟩
  exact lowAddr_read32_toNat s.mem 0xFFFFFC#24

end Sys2Proof.Machine
end

section
/-! Calls, interrupts and returns (48_control_system.md R354 to R360, 60_exceptions.md R412 to R417): what is pushed, where PC
goes, and that a return finds what was pushed. -/

namespace Sys2Proof.Machine

open Sys2Proof Sys2Proof.Claims Sys2Proof.Laws

/-! ## From what every instruction does to the words of the statements -/

theorem ends_of_exec {i : Instr} {nacc : Nat} {s t : State} (hwf : i.wellFormed = true) (hexec : exec i s = .next t)
    (hp : isPrefix i = false) (hn : dataAccesses i = nacc) : Ends i nacc s t := by
  obtain ⟨t', ht', hrun⟩ := exec_of_wellFormed hwf s
  obtain rfl : t' = t := by simpa using ht'.symm.trans hexec
  exact ⟨hexec, by rw [hrun.cyc, hn], (hrun.plain hp).1, (hrun.plain hp).2, hrun.halted, hrun.fault, hrun.mcra, hrun.irq,
    hrun.acks⟩

theorem completes_of_exec {i : Instr} {nacc : Nat} {s t : State} (hwf : i.wellFormed = true) (hexec : exec i s = .next t)
    (hp : isPrefix i = false) (ht : namesTarget i = false) (hn : dataAccesses i = nacc) : Completes i nacc s t where
  toEnds := ends_of_exec hwf hexec hp hn
  pc := by
    obtain ⟨t', ht', hrun⟩ := exec_of_wellFormed hwf s
    obtain rfl : t' = t := by simpa using ht'.symm.trans hexec
    rw [hrun.pc ht, nextPc_toNat]

/-! ## Frames -/

theorem keepsRegs_refl (l : List Part) (s : State) : KeepsRegs l s s := fun _ _ => rfl

theorem keepsMem_refl (l : List Addr) (s : State) : KeepsMem l s s := fun _ _ => rfl

theorem keepsFlags_refl (l : List Nat) (s : State) : KeepsFlags l s s := fun _ _ => rfl

/-! ## Jumps through memory and calls -/

theorem exec_jmpi {src : Opnd} {s : State} {ea : Addr} (h : resolvePtr src lmPtr s = some ea) :
    exec (.jmpi src) s = .next (complete (lowAddr (read32 s.mem ea)) (2 + src.extLen) 1 s) :=
  withPtr_resolved h

theorem exec_jsri {src : Opnd} {s : State} {ea : Addr} (h : resolvePtr src lmPtr s = some ea) :
    exec (.jsri src) s = .next (complete (lowAddr (read32 s.mem ea)) (2 + src.extLen) 2
      (push .long (addrWord (nextPc s (2 + src.extLen))) s)) :=
  withPtr_resolved h

/-- An instruction whose one operand is a pointer resolves it where it is well formed. -/
theorem resolvePtr_of_wellFormed {i : Instr} {o : Opnd} {ops : List (OpndUse × Opnd)} (hops : i.operands = (.pointer, o) :: ops)
    (hwf : i.wellFormed = true) (s : State) : ∃ ea, resolvePtr o lmPtr s = some ea := by
  rw [Instr.wellFormed, hops, List.all_cons, Bool.and_eq_true] at hwf
  exact resolvePtr_of_isMem hwf.1 s

/-- Settles O51. -/
theorem jumpIndirect : Obligations.JumpIndirect := by
  intro src s hwf
  obtain ⟨ea, hea⟩ := resolvePtr_of_wellFormed rfl hwf s
  have hexec := exec_jmpi hea
  exact ⟨ea, _, hea, ends_of_exec hwf hexec rfl rfl, lowAddr_toNat _, complete_mem .., complete_frame ..⟩

theorem addrWord_toNat (a : Addr) : (addrWord a).toNat = a.toNat := BitVec.toNat_setWidth_of_le (by decide)

theorem lowAddr_addrWord (a : Addr) : lowAddr (addrWord a) = a := by
  apply BitVec.eq_of_toNat_eq
  rw [lowAddr_toNat, addrWord_toNat, Nat.mod_eq_of_lt a.isLt]

/-- A push changes SP and the bytes of its slot only. -/
theorem outside_push {s : State} (h : s.mem.wf = true) (w : Width) (v : Val) :
    Outside [] (span (lowAddr (pushedSp w s)) w.bytes) [] s (push w v s) where
  regs p _ := by cases p <;> rfl
  mem := push_keepsMem h w v
  flags := keepsFlags_refl _ _
  intb := rfl
  bcd := rfl

theorem outside_complete {regs : List Part} {mem : List Addr} {flags : List Nat} {s t : State}
    (h : Outside regs mem flags s t) (target : Addr) (len nacc : Nat) :
    Outside regs mem flags s (complete target len nacc t) where
  regs p hp := by rw [← h.regs p hp]; cases p <;> rfl
  mem := h.mem
  flags := h.flags
  intb := h.intb
  bcd := h.bcd

/-- What a call leaves: the return address at the new top of the stack, SP four below, and the rest as it was. -/
theorem call_pushes {s : State} (h : s.mem.wf = true) (target ret : Addr) (len nacc : Nat) :
    (complete target len nacc (push .long (addrWord ret) s)).sp = s.sp - 4#32 ∧
    (read32 (complete target len nacc (push .long (addrWord ret) s)).mem (lowAddr (s.sp - 4#32))).toNat = ret.toNat ∧
    Outside [] (span (lowAddr (s.sp - 4#32)) 4) [] s (complete target len nacc (push .long (addrWord ret) s)) :=
  ⟨rfl, (congrArg BitVec.toNat (popValue_push h .long (addrWord ret))).trans (addrWord_toNat ret),
    outside_complete (outside_push h .long (addrWord ret)) target len nacc⟩

theorem encode_jsri_length (src : Opnd) : (encode (.jsri src)).length = 2 + src.extLen := encOne_length ..

/-- Settles O52. -/
theorem callsPushReturnAddress : Obligations.CallsPushReturnAddress := by
  intro rel target src s h
  refine ⟨?_, ?_, fun hwf => ?_⟩
  · obtain ⟨hsp, hret, hout⟩ := call_pushes h (relTarget 3 rel s) (nextPc s 3) 3 1
    refine ⟨_, ends_of_exec rfl (rfl : exec (.jsrW rel) s = _) rfl rfl, ?_, hsp, hret.trans (nextPc_toNat s 3), hout⟩
    rw [complete_pc, relTarget_eq_ofInt]
    exact toNat_ofInt_addr _
  · obtain ⟨hsp, hret, hout⟩ := call_pushes h target (nextPc s 4) 4 1
    exact ⟨_, ends_of_exec rfl (rfl : exec (.jsrA target) s = _) rfl rfl, rfl, hsp, hret.trans (nextPc_toNat s 4), hout⟩
  · obtain ⟨ea, hea⟩ := resolvePtr_of_wellFormed rfl hwf s
    obtain ⟨hsp, hret, hout⟩ :=
      call_pushes h (lowAddr (read32 s.mem ea)) (nextPc s (2 + src.extLen)) (2 + src.extLen) 2
    refine ⟨ea, _, hea, ends_of_exec hwf (exec_jsri hea) rfl rfl, lowAddr_toNat _, hsp, ?_, hout⟩
    rw [hret, nextPc_toNat, encode_jsri_length]

/-- RTS after a call by any of the three, with the return address `ret` pushed. -/
theorem rts_after_call {s : State} (h : s.mem.wf = true) (target ret : Addr) (len nacc : Nat) :
    ∃ u, exec .rts (complete target len nacc (push .long (addrWord ret) s)) = .next u ∧ u.pc = ret ∧ u.sp = s.sp ∧
      u.flg = s.flg ∧ KeepsRegs [] s u := by
  refine ⟨_, exec_rts _, ?_, ?_, rfl, fun p _ => by cases p <;> rfl⟩
  · exact (congrArg lowAddr (popValue_push h .long (addrWord ret))).trans (lowAddr_addrWord ret)
  · exact popState_push_sp .long (addrWord ret) s

/-- Settles O54. -/
theorem callThenReturn : Obligations.CallThenReturn := by
  intro i s t h hwf hcall hexec
  have finish : ∀ target ret len nacc, exec i s = .next (complete target len nacc (push .long (addrWord ret) s)) →
      ret.toNat = (s.pc.toNat + (encode i).length) % 2 ^ 24 →
      ∃ u, exec .rts t = .next u ∧ u.pc.toNat = (s.pc.toNat + (encode i).length) % 2 ^ 24 ∧ u.sp = s.sp ∧
        u.flg = s.flg ∧ KeepsRegs [] s u := by
    intro target ret len nacc hcalled hret
    obtain rfl : _ = t := by simpa using hcalled.symm.trans hexec
    obtain ⟨u, hu, hpc, hrest⟩ := rts_after_call h target ret len nacc
    exact ⟨u, hu, by rw [hpc, hret], hrest⟩
  rcases hcall with ⟨rel, rfl⟩ | ⟨target, rfl⟩ | ⟨src, rfl⟩
  · exact finish _ _ _ _ rfl (nextPc_toNat s 3)
  · exact finish _ _ _ _ rfl (nextPc_toNat s 4)
  · obtain ⟨ea, hea⟩ := resolvePtr_of_wellFormed rfl hwf s
    exact finish _ _ _ _ (exec_jsri hea) (by rw [nextPc_toNat, encode_jsri_length])

end Sys2Proof.Machine
end

section
/-! Interrupt entry, INT and REIT, the flag instructions (48_control_system.md R359 to R362, 60_exceptions.md R412 to R417). -/

namespace Sys2Proof.Machine

open Sys2Proof Sys2Proof.Claims Sys2Proof.Laws

/-! ## The stack frame of an entry -/

/-- `t` is `s` with the frame of an entry on its stack: FLG and a return address in six bytes, nothing else in memory and in the
general registers changed. -/
structure EntryFrame (s : State) (ret : Addr) (t : State) : Prop where
  sp : t.sp = s.sp - 6#32
  ret : read32 t.mem (lowAddr (s.sp - 6#32)) = addrWord ret
  flg : read16 t.mem (lowAddr (s.sp - 2#32)) = s.flg
  mem : KeepsMem (span (lowAddr (s.sp - 6#32)) 6) s t
  regs : KeepsRegs [] s t
  intb : t.intb = s.intb
  bcd : t.diagBcd = s.diagBcd

theorem entryFrame_enterVector {s : State} (h : s.mem.wf = true) (level : Option IntLevel) (ret : Addr) (v : BitVec 8) :
    EntryFrame s ret (enterVector level ret v s) := by
  obtain ⟨hsp, hret, hflg, hmem⟩ := pushes_of_entry h (s.flg.setWidth 32) (addrWord ret)
  exact ⟨hsp, hret, hflg.trans (by simp), hmem, fun p _ => by cases p <;> rfl, rfl, rfl⟩

theorem entryFrame_complete {s t : State} {ret : Addr} (h : EntryFrame s ret t) (target : Addr) (len nacc : Nat) :
    EntryFrame s ret (complete target len nacc t) :=
  ⟨h.sp, h.ret, h.flg, h.mem, fun p hp => by rw [← h.regs p hp]; cases p <;> rfl, h.intb, h.bcd⟩

/-- The entry of an accepted request at a boundary, whatever samples are left. -/
theorem entryFrame_interruptEntry {s : State} (h : s.mem.wf = true) (r : Irq) (q : List (Option Irq)) :
    EntryFrame s s.pc (interruptEntry r { s with irq := q }) := by
  obtain ⟨hsp, hret, hflg, hmem, -, hintb, hbcd⟩ :=
    entryFrame_enterVector (s := { s with irq := q }) h (some r.level) s.pc r.vector
  exact ⟨hsp, hret, hflg, hmem, fun p _ => by cases p <;> rfl, hintb, hbcd⟩

/-- The vector is read after the pushes, at `INTB + 4 * v` (R413). -/
theorem enterVector_target (level : Option IntLevel) (ret : Addr) (v : BitVec 8) (s : State) :
    (enterVector level ret v s).pc =
      lowAddr (read32 (enterVector level ret v s).mem (BitVec.ofNat 24 (s.intb.toNat + 4 * v.toNat))) := by
  rw [← vectorAddr_eq]
  rfl

/-! ## FLG at an entry -/

theorem getIpl_setIpl (l : BitVec 3) (flg : BitVec 16) : getIpl (setIpl l flg) = l := by
  apply BitVec.eq_of_getLsbD_eq
  intro k hk
  simp [getIpl, setIpl_getLsbD, hk, show 8 + k < 11 by omega]

theorem getFlag_i_setIpl (l : BitVec 3) (flg : BitVec 16) : getFlag .i (setIpl l flg) = getFlag .i flg := by
  rw [getFlag, setIpl_getLsbD]
  exact if_neg (by decide)

theorem flagsIntEntry_i (level : Option IntLevel) (flg : BitVec 16) : getFlag .i (flagsIntEntry level flg) = false := by
  cases level with
  | none => exact getFlag_setFlag .i .i false flg
  | some l => exact (getFlag_i_setIpl _ _).trans (getFlag_setFlag .i .i false flg)

/-- `FLG[f] <- t` changes the bit of the flag only. -/
theorem setFlag_keeps (f : Flag) (t : Bool) (flg : BitVec 16) {k : Nat} (hk : k ∉ [f.bit]) :
    (setFlag f t flg).getLsbD k = flg.getLsbD k := by
  rw [setFlag_getLsbD, if_neg (by simpa using hk)]

theorem flagsIntEntry_some_keeps (l : IntLevel) (flg : BitVec 16) {k : Nat} (hk : k ∉ [4, 8, 9, 10]) :
    (flagsIntEntry (some l) flg).getLsbD k = flg.getLsbD k := by
  simp only [List.mem_cons, List.not_mem_nil, or_false, not_or] at hk
  rw [flagsIntEntry, setIpl_getLsbD, if_neg (by omega)]
  exact setFlag_keeps .i false flg (by simpa [Flag.bit] using hk.1)

/-! ## The entries -/

/-- Settles O14. -/
theorem interruptEntry_holds : Obligations.InterruptEntry := by
  intro s r q h hi hq hflag hlevel
  rw [boundary_of_accepted hi hq hflag hlevel]
  have hframe := entryFrame_interruptEntry h r q
  have hpc := enterVector_target (some r.level) s.pc r.vector { s with irq := q }
  exact ⟨_, rfl, hframe.sp, hframe.ret, hframe.flg, hframe.mem, flagsIntEntry_i _ _,
    (congrArg BitVec.toNat (getIpl_setIpl _ _)).trans (bits_toNat _), fun k hk => flagsIntEntry_some_keeps _ _ hk, hpc,
    hframe.regs, rfl, rfl, rfl, hi, rfl, rfl, rfl, rfl, rfl, rfl⟩

theorem exec_int (v : BitVec 8) (s : State) :
    exec (.int v) s =
      .next (complete (enterVector none (nextPc s 2) v s).pc 2 3 (enterVector none (nextPc s 2) v s)) := rfl

/-- Settles O55. -/
theorem softwareInterrupt : Obligations.SoftwareInterrupt := by
  intro v s h
  have hframe := entryFrame_complete (entryFrame_enterVector h none (nextPc s 2) v)
    (enterVector none (nextPc s 2) v s).pc 2 3
  refine ⟨_, ends_of_exec rfl (exec_int v s) rfl rfl, hframe.sp, ?_, hframe.flg, flagsIntEntry_i _ _,
    enterVector_target none (nextPc s 2) v s,
    hframe.regs, hframe.mem, fun k hk => setFlag_keeps .i false s.flg hk, hframe.intb, hframe.bcd⟩
  rw [hframe.ret, addrWord_toNat, nextPc_toNat]

/-! ## REIT -/

theorem exec_reit (s : State) : exec .reit s = .next (complete (leaveVector s).1 1 2 (leaveVector s).2) := rfl

/-- Settles O56. -/
theorem interruptReturn : Obligations.InterruptReturn := by
  intro s
  refine ⟨rfl, ?_⟩
  have hsp : s.sp + 4#32 + 2#32 = s.sp + 6#32 := by bv_omega
  have hflg : (popValue .word (popState .long s)).setWidth 16 = read16 s.mem ((s.sp + 4#32).setWidth 24) :=
    BitVec.setWidth_setWidth_of_le _ (by decide)
  rw [exec_reit, ← hsp, ← hflg]
  rfl

/-- REIT on the frame of an entry comes back to the return address with FLG and SP as before. -/
theorem reit_of_entryFrame {s t : State} {ret : Addr} (hflg : s.flg &&& 0x071F#16 = s.flg) (h : EntryFrame s ret t) :
    ∃ u, exec .reit t = .next u ∧ u.pc = ret ∧ u.flg = s.flg ∧ u.sp = s.sp ∧
      Outside [] (span (lowAddr (s.sp - 6#32)) 6) [] s u := by
  have hup : t.sp + 4#32 = s.sp - 2#32 := by rw [h.sp]; bv_omega
  have hpc : (read32 t.mem (t.sp.setWidth 24)).setWidth 24 = ret := by
    rw [h.sp]
    exact (congrArg lowAddr h.ret).trans (lowAddr_addrWord ret)
  have hback : read16 t.mem ((t.sp + 4#32).setWidth 24) &&& 0x071F#16 = s.flg := by
    rw [hup]
    exact (congrArg (· &&& 0x071F#16) h.flg).trans hflg
  refine ⟨_, (interruptReturn t).2, hpc, hback, ?_, ?_, h.mem, fun k _ => ?_, h.intb, h.bcd⟩
  · show t.sp + 6#32 = s.sp
    rw [h.sp, BitVec.sub_add_cancel]
  · intro p hp
    rw [← h.regs p hp]
    cases p <;> rfl
  · exact congrArg (BitVec.getLsbD · k) hback

/-- Settles O57. -/
theorem returnUndoesEntry : Obligations.ReturnUndoesEntry := by
  intro s h hflg
  refine ⟨fun level ret v => reit_of_entryFrame hflg (entryFrame_enterVector h level ret v), fun v => ?_,
    fun r q hi hq hflag hlevel => ?_⟩
  · obtain ⟨u, hu, hpc, hrest⟩ := reit_of_entryFrame hflg
      (entryFrame_complete (entryFrame_enterVector h none (nextPc s 2) v) (enterVector none (nextPc s 2) v s).pc 2 3)
    exact ⟨_, u, exec_int v s, hu, by rw [hpc, nextPc_toNat], hrest⟩
  · rw [boundary_of_accepted hi hq hflag hlevel]
    exact ⟨rfl, reit_of_entryFrame hflg (entryFrame_interruptEntry h r q)⟩

/-! ## The flag instructions -/

/-- An instruction that is `FlagBit(f, t)`. -/
theorem flagBit_writes {i : Instr} {f : Flag} {t : Bool} (hwf : i.wellFormed = true) (hexec : ∀ s, exec i s = flagBit f t s)
    (hp : isPrefix i = false) (ht : namesTarget i = false) (hn : dataAccesses i = 0) (s : State) :
    ∃ u, Completes i 0 s u ∧ u.flg.getLsbD f.bit = t ∧ Frame [] [] [f.bit] s u := by
  refine ⟨_, completes_of_exec hwf (hexec s) hp ht hn, ?_, ⟨fun p _ => ?_, keepsMem_refl _ s, fun k hk => ?_, rfl, rfl⟩, rfl⟩
  · exact (setFlag_getLsbD f t s.flg f.bit).trans (if_pos rfl)
  · cases p <;> rfl
  · exact setFlag_keeps f t s.flg hk

/-- Settles O58. -/
theorem flagInstructions : Obligations.FlagInstructions := by
  intro s
  simp only [List.forall_mem_cons, List.not_mem_nil, false_implies, implies_true, and_true]
  exact ⟨⟨⟨rfl, flagBit_writes (f := .c) rfl (fun _ => rfl) rfl rfl rfl s⟩,
      ⟨rfl, flagBit_writes (f := .z) rfl (fun _ => rfl) rfl rfl rfl s⟩,
      ⟨rfl, flagBit_writes (f := .s) rfl (fun _ => rfl) rfl rfl rfl s⟩,
      ⟨rfl, flagBit_writes (f := .o) rfl (fun _ => rfl) rfl rfl rfl s⟩,
      ⟨rfl, flagBit_writes (f := .i) rfl (fun _ => rfl) rfl rfl rfl s⟩⟩,
    ⟨rfl, flagBit_writes (f := .c) rfl (fun _ => rfl) rfl rfl rfl s⟩,
    ⟨rfl, flagBit_writes (f := .z) rfl (fun _ => rfl) rfl rfl rfl s⟩,
    ⟨rfl, flagBit_writes (f := .s) rfl (fun _ => rfl) rfl rfl rfl s⟩,
    ⟨rfl, flagBit_writes (f := .o) rfl (fun _ => rfl) rfl rfl rfl s⟩,
    ⟨rfl, flagBit_writes (f := .i) rfl (fun _ => rfl) rfl rfl rfl s⟩⟩

end Sys2Proof.Machine
end

section
/-! The resolver's answers, bit operands, prefixes, conditions and the flag tables (41_resolver.md R171 to R189, 47_prefix.md,
42_flags_conditions.md R203 to R213). -/

namespace Sys2Proof.Machine

open Sys2Proof Sys2Proof.Claims Sys2Proof.Laws

/-! ## Conditions -/

/-- Settles O26. -/
theorem conditionTable : Obligations.ConditionTable := condHolds_eq_condFormula

/-! ## Register modes -/

/-- The rows of R173: the resolver names the view of the table. -/
theorem resolve_registerViews (s : State) {o : Opnd} {w : Width} {v : View} (h : (o, w, v) ∈ registerViews) :
    resolve o w (lmValue w) .allow s = some (.reg v) ∧
      ((o.isAReg = true → w ≠ .byte) → resolve o w (lmValue w) .forbid s = some (.reg v)) := by
  have rows : ∀ e ∈ registerViews,
      resolve e.1 e.2.1 (lmValue e.2.1) .allow s = some (.reg e.2.2) ∧
        ((e.1.isAReg = true → e.2.1 ≠ .byte) → resolve e.1 e.2.1 (lmValue e.2.1) .forbid s = some (.reg e.2.2)) := by
    simp only [registerViews, List.forall_mem_cons, List.not_mem_nil, false_implies, implies_true, and_true]
    exact ⟨⟨rfl, fun _ => rfl⟩, ⟨rfl, fun _ => rfl⟩, ⟨rfl, fun _ => rfl⟩, ⟨rfl, fun _ => rfl⟩, ⟨rfl, fun _ => rfl⟩,
      ⟨rfl, fun _ => rfl⟩, ⟨rfl, fun _ => rfl⟩, ⟨rfl, fun _ => rfl⟩, ⟨rfl, fun _ => rfl⟩, ⟨rfl, fun _ => rfl⟩,
      ⟨rfl, fun hb => absurd rfl (hb rfl)⟩, ⟨rfl, fun hb => absurd rfl (hb rfl)⟩, ⟨rfl, fun _ => rfl⟩,
      ⟨rfl, fun _ => rfl⟩, ⟨rfl, fun _ => rfl⟩, ⟨rfl, fun _ => rfl⟩⟩
  exact rows _ h

/-- Settles O21. -/
theorem resolverAdmits : Obligations.ResolverAdmits :=
  ⟨fun o s bit => ⟨fun w => resolve_isSome_allow o w s, fun w => resolve_isSome_forbid o w s, resolvePtr_isSome o s,
      resolveBit_isSome o bit s⟩,
    fun s _ _ _ h => resolve_registerViews s h,
    fun s => ⟨BitVec.toNat_setWidth_of_le (by decide), BitVec.toNat_setWidth_of_le (by decide),
      BitVec.toNat_setWidth_of_le (by decide), BitVec.toNat_setWidth_of_le (by decide), rfl, rfl⟩⟩

/-! ## Bit operands -/

/-- A bit operand in memory: the byte and the bit number of the sum (R188). -/
theorem resolveBit_of_effAddr {o : Opnd} {s : State} {ea : Addr} (h : effAddr o s = some ea) (bit : BitVec 3) :
    resolveBit o bit s =
      some (.mem (ea + BitVec.ofNat 24 ((bit.toNat + bitIndex s) / 8)) .byte, (bit.toNat + bitIndex s) % 8) := by
  have hbase : (!o.isAReg) = true := by
    cases o with
    | areg a => nomatch h
    | _ => rfl
  simp only [resolveBit, legal_lmBit, hbase, h, if_true]

/-- Settles O23. -/
theorem bitOperandPlace : Obligations.BitOperandPlace := by
  intro s o bit
  refine ⟨fun h => by rw [h]; rfl, fun h => by rw [h]; rfl, fun h => by rw [h]; rfl, fun h => by rw [h]; rfl, fun ea h => ?_⟩
  refine ⟨_, resolveBit_of_effAddr (resolvePtr_eq_some_iff.1 h) bit, ?_⟩
  rw [BitVec.toNat_add, BitVec.toNat_ofNat, Nat.add_mod_mod]
  rfl

/-! ## Prefixes -/

/-- An index instruction arms the source value times its scale (R349). -/
theorem arms_of_prefixOne {i : Instr} {b0 : Byte} {w : Width} {scale : Nat} {kind : StickyKind} {src : Opnd} {s : State}
    (hexec : exec i s = prefixOne b0 w (BitVec.ofNat 24 scale) kind src s) (hadm : (OpndUse.value w true).admits src = true)
    (hlen : (encode i).length = 2 + src.extLen) : Arms i w src scale kind s := by
  obtain ⟨x, hx, -⟩ := resolve_of_admits_allow hadm s
  refine ⟨x, (x.get s).setWidth 24 * BitVec.ofNat 24 scale, _, hx, hexec.trans (prefixOne_resolved hx), ?_, ?_⟩
  · rw [BitVec.toNat_mul, BitVec.toNat_setWidth, BitVec.toNat_ofNat, ← Nat.mul_mod]
  · rw [advanceArmed, nextPc, hlen, resolve_calls hx]

/-- Settles O48. -/
theorem prefixesArm : Obligations.PrefixesArm := fun _ _ =>
  ⟨arms_of_prefixOne rfl rfl (encOne_length ..), arms_of_prefixOne rfl rfl (encOne_length ..),
    arms_of_prefixOne rfl rfl (encOne_length ..), arms_of_prefixOne rfl rfl (encOne_length ..),
    arms_of_prefixOne rfl rfl (encOne_length ..), arms_of_prefixOne rfl rfl (encOne_length ..),
    arms_of_prefixOne rfl rfl (encOne_length ..), arms_of_prefixOne rfl rfl (encOne_length ..)⟩

/-! ## The flag tables -/

theorem two_pow_bits (w : Width) : 2 ^ w.bits = 2 * 2 ^ (w.bits - 1) := by cases w <;> rfl

theorem two_pow_bits_int (w : Width) : (2 : Int) ^ w.bits = 2 * 2 ^ (w.bits - 1) := by cases w <;> rfl

/-- ADDTAB at numbers below `2 * H`, their signs being the comparisons with `H`: for each of the eight rows the entry is fixed and
the claim about it linear arithmetic. -/
theorem addTab_entry {H a b k r : Nat} (ha : a < 2 * H) (hb : b < 2 * H) (hk : k ≤ 1) (hr : r = (a + b + k) % (2 * H)) :
    addTab[4 * (decide (H ≤ a)).toNat + 2 * (decide (H ≤ b)).toNat + (decide (H ≤ r)).toNat]? =
      some (decide (2 * H ≤ a + b + k),
        decide ((if a < H then (a : Int) else a - 2 * H) + (if b < H then (b : Int) else b - 2 * H) + k < -H ∨
          H ≤ (if a < H then (a : Int) else a - 2 * H) + (if b < H then (b : Int) else b - 2 * H) + k)) := by
  have hsum : a + b + k < 2 * H ∧ r = a + b + k ∨ 2 * H ≤ a + b + k ∧ r + 2 * H = a + b + k := by
    by_cases hlt : a + b + k < 2 * H
    · exact .inl ⟨hlt, hr.trans (Nat.mod_eq_of_lt hlt)⟩
    · rw [Nat.mod_eq_sub_mod (by omega), Nat.mod_eq_of_lt (by omega)] at hr
      omega
  by_cases hsa : H ≤ a <;> by_cases hsb : H ≤ b <;> by_cases hsr : H ≤ r <;>
    simp [addTab, hsa, hsb, hsr, Nat.not_lt.2, Nat.lt_of_not_le] <;> omega

/-- SUBTAB at numbers below `2 * H`, row by row as ADDTAB. -/
theorem subTab_entry {H a b k r : Nat} (ha : a < 2 * H) (hb : b < 2 * H) (hk : k ≤ 1)
    (hr : (r : Int) = ((a : Int) - b - k) % (2 * H : Nat)) :
    subTab[4 * (decide (H ≤ a)).toNat + 2 * (decide (H ≤ b)).toNat + (decide (H ≤ r)).toNat]? =
      some (decide (b + k ≤ a),
        decide ((if a < H then (a : Int) else a - 2 * H) - (if b < H then (b : Int) else b - 2 * H) - k < -H ∨
          H ≤ (if a < H then (a : Int) else a - 2 * H) - (if b < H then (b : Int) else b - 2 * H) - k)) := by
  have hdiff : b + k ≤ a ∧ r + b + k = a ∨ a < b + k ∧ r + b + k = a + 2 * H := by
    by_cases hle : b + k ≤ a
    · rw [Int.emod_eq_of_lt (by omega) (by omega)] at hr
      omega
    · rw [← Int.add_emod_right, Int.emod_eq_of_lt (by omega) (by omega)] at hr
      omega
  by_cases hsa : H ≤ a <;> by_cases hsb : H ≤ b <;> by_cases hsr : H ≤ r <;>
    simp [subTab, hsa, hsb, hsr, Nat.not_lt.2, Nat.lt_of_not_le] <;> omega

theorem signIndex_eq {w : Width} {a b r : Val} (ha : a.toNat < 2 ^ w.bits) (hb : b.toNat < 2 ^ w.bits)
    (hr : r.toNat < 2 ^ w.bits) :
    signIndex w a b r =
      4 * (decide (2 ^ (w.bits - 1) ≤ a.toNat)).toNat + 2 * (decide (2 ^ (w.bits - 1) ≤ b.toNat)).toNat +
        (decide (2 ^ (w.bits - 1) ≤ r.toNat)).toNat := by
  rw [signIndex, signBit_eq ha, signBit_eq hb, signBit_eq hr]

theorem addTab_signIndex {w : Width} {a b r : Val} {k : Nat} (ha : a.toNat < 2 ^ w.bits) (hb : b.toNat < 2 ^ w.bits)
    (hk : k ≤ 1) (hr : r.toNat = (a.toNat + b.toNat + k) % 2 ^ w.bits) :
    addTab[signIndex w a b r]? = some
      (decide (2 ^ w.bits ≤ a.toNat + b.toNat + k), outOfRange w (signed w a.toNat + signed w b.toNat + k)) := by
  rw [signIndex_eq ha hb (by rw [hr]; exact Nat.mod_lt _ (Nat.two_pow_pos _))]
  rw [two_pow_bits] at ha hb hr
  simpa only [outOfRange, signed, two_pow_bits, two_pow_bits_int, Nat.cast_pow, Nat.cast_ofNat] using
    addTab_entry ha hb hk hr

theorem subTab_signIndex {w : Width} {a b r : Val} {k : Nat} (ha : a.toNat < 2 ^ w.bits) (hb : b.toNat < 2 ^ w.bits)
    (hk : k ≤ 1) (hr : (r.toNat : Int) = ((a.toNat : Int) - b.toNat - k) % 2 ^ w.bits) :
    subTab[signIndex w a b r]? = some
      (decide (b.toNat + k ≤ a.toNat), outOfRange w (signed w a.toNat - signed w b.toNat - k)) := by
  have hpos : (0 : Int) < 2 ^ w.bits := by cases w <;> decide
  have hlt : r.toNat < 2 ^ w.bits := by
    have := Int.emod_lt_of_pos ((a.toNat : Int) - b.toNat - k) hpos
    rw [← hr] at this
    exact_mod_cast this
  rw [signIndex_eq ha hb hlt]
  rw [two_pow_bits] at ha hb
  rw [two_pow_bits_int] at hr
  simpa only [outOfRange, signed, two_pow_bits_int, Nat.cast_pow, Nat.cast_ofNat] using
    subTab_entry ha hb hk (hr.trans (by push_cast; rfl))

/-- Settles O25. -/
theorem flagTablesTextbook : Obligations.FlagTablesTextbook := fun _ _ _ _ _ ha hb hk =>
  ⟨addTab_signIndex ha hb hk, subTab_signIndex ha hb hk⟩

end Sys2Proof.Machine
end

section
/-! The shapes of the two- and one-operand instructions, from the operation to the words of the statements: what is resolved,
what the destination holds afterwards, which flags, and the frame (43_data_movement.md R230, 44_arithmetic.md R260,
45_logic_shift.md R290, R300). -/

namespace Sys2Proof.Machine

open Sys2Proof Sys2Proof.Claims Sys2Proof.Laws

/-! ## Frames of the operations -/

theorem outside_refl (s : State) : Outside [] [] [] s s :=
  ⟨keepsRegs_refl _ s, keepsMem_refl _ s, keepsFlags_refl _ s, rfl, rfl⟩

theorem frame_refl (s : State) : Frame [] [] [] s s := ⟨outside_refl s, rfl⟩

/-- Only FLG is written, and in it only the listed bits. -/
theorem frame_setFlg {changed : List Nat} {s : State} {flg : BitVec 16}
    (h : ∀ k, k ∉ changed → flg.getLsbD k = s.flg.getLsbD k) : Frame [] [] changed s { s with flg := flg } :=
  ⟨⟨fun p _ => by cases p <;> rfl, keepsMem_refl _ s, h, rfl, rfl⟩, rfl⟩

/-- An accessor set after an effect that left registers and memory alone. -/
theorem outside_set {changed : List Nat} {s u : State} (h : s.mem.wf = true) (hu : Outside [] [] changed s u)
    (hm : u.mem = s.mem) (y : Acc) (v : Val) : Outside y.parts y.span changed s (y.set v u) where
  regs p hp := (Acc.set_keepsRegs y v u p hp).trans (hu.regs p List.not_mem_nil)
  mem a ha := (Acc.set_keepsMem (hm ▸ h) y v a ha).trans (hu.mem a List.not_mem_nil)
  flags k hk := by rw [Acc.set_flg, hu.flags k hk]
  intb := by rw [Acc.set_intb, hu.intb]
  bcd := by rw [Acc.set_diagBcd, hu.bcd]

theorem frame_set {changed : List Nat} {s u : State} (h : s.mem.wf = true) (hu : Frame [] [] changed s u)
    (hm : u.mem = s.mem) (y : Acc) (v : Val) : Frame y.parts y.span changed s (y.set v u) :=
  ⟨outside_set h hu.toOutside hm y v, by rw [Acc.set_sp, hu.sp]⟩

theorem outside_advance {regs : List Part} {mem : List Addr} {flags : List Nat} {s t : State}
    (h : Outside regs mem flags s t) (len nacc : Nat) : Outside regs mem flags s (advance len nacc t) :=
  outside_complete h _ _ _

theorem frame_advance {regs : List Part} {mem : List Addr} {flags : List Nat} {s t : State}
    (h : Frame regs mem flags s t) (len nacc : Nat) : Frame regs mem flags s (advance len nacc t) :=
  ⟨outside_advance h.toOutside len nacc, h.sp⟩

/-- What is read from a destination at the end of the instruction that set it. -/
theorem get_advance_set {u : State} (h : u.mem.wf = true) (y : Acc) (v : Val) (len nacc : Nat) :
    y.get (advance len nacc (y.set v u)) = trunc y.width v :=
  (Acc.get_congr y (fun w => by cases w <;> rfl) rfl).trans (Acc.get_set h y v)

/-- The end of an instruction that wrote the value `v` and the flags `flg`: what is read back, FLG and the frame. -/
theorem end_of_write {s : State} (h : s.mem.wf = true) {y : Acc} {v : Val} {flg : BitVec 16} {changed : List Nat}
    (hv : v.toNat < 2 ^ y.width.bits) (hflg : ∀ k, k ∉ changed → flg.getLsbD k = s.flg.getLsbD k) (len nacc : Nat) :
    y.get (advance len nacc (y.set v { s with flg := flg })) = v ∧
      (advance len nacc (y.set v { s with flg := flg })).flg = flg ∧
      Frame y.parts y.span changed s (advance len nacc (y.set v { s with flg := flg })) :=
  ⟨(get_advance_set (u := { s with flg := flg }) h y v len nacc).trans (trunc_of_lt hv), Acc.set_flg ..,
    frame_advance (frame_set (u := { s with flg := flg }) h (frame_setFlg hflg) rfl y v) len nacc⟩

/-! ## What an instruction is, from the tables -/

/-- An instruction that neither arms STICKY nor names a target, with its operands and its data accesses. -/
structure Plain (i : Instr) (ops : List (OpndUse × Opnd)) (nacc : Nat) : Prop where
  operands : i.operands = ops
  accesses : dataAccesses i = nacc
  notPrefix : isPrefix i = false
  noTarget : namesTarget i = false

section

variable {i : Instr} {ops : List (OpndUse × Opnd)} {nacc : Nat} {u v : OpndUse} {src dst : Opnd} {s t : State}

theorem Plain.completes (h : Plain i ops nacc) (hwf : i.wellFormed = true) (hexec : exec i s = .next t) :
    Completes i nacc s t :=
  completes_of_exec hwf hexec h.notPrefix h.noTarget h.accesses

theorem Plain.wellFormed (h : Plain i ops nacc) : i.wellFormed = ops.all fun p => p.1.admits p.2 := by
  rw [Instr.wellFormed, h.operands]

theorem Plain.admits_one (h : Plain i [(u, dst)] nacc) (hwf : i.wellFormed = true) : u.admits dst = true := by
  rw [h.wellFormed] at hwf
  simpa using hwf

theorem Plain.admits_two (h : Plain i [(u, src), (v, dst)] nacc) (hwf : i.wellFormed = true) :
    u.admits src = true ∧ v.admits dst = true := by
  rw [h.wellFormed] at hwf
  simpa using hwf

end

/-- A destination is at least as wide as its nominal width (R174). -/
theorem bits_le_of_resolve {o : Opnd} {w : Width} {lm : BitVec 16} {p : Promote} {s : State} {y : Acc}
    (h : resolve o w lm p s = some y) : w.bits ≤ y.width.bits := by
  by_cases hw : w = .byte
  · rw [hw]
    cases y.width <;> decide
  · rw [resolve_width_of_ne h hw]

/-- An immediate brought to the destination's width is itself (R121). -/
theorem adj_imm_toNat {o : Opnd} {w : Width} {lm : BitVec 16} {p : Promote} {s : State} {y : Acc}
    (h : resolve o w lm p s = some y) {imm : Val} (himm : imm.toNat < 2 ^ w.bits) :
    (adj imm w y.width).toNat = imm.toNat := by
  rw [adj_toNat himm, Nat.mod_eq_of_lt]
  exact Nat.lt_of_lt_of_le himm (Nat.pow_le_pow_right (by decide) (bits_le_of_resolve h))

theorem mod_lt_two_pow (n : Nat) (w : Width) : n % 2 ^ w.bits < 2 ^ w.bits := Nat.mod_lt _ (Nat.two_pow_pos _)

/-! ## Operations on two values -/

/-- `f` computes `value` with the flags `flags`, writing the bits `changed` of FLG only. -/
structure Computes (f : Binary) (value : Width → Nat → Nat → Bool → Nat)
    (flags : Width → Nat → Nat → Bool → BitVec 16 → Prop) (changed : List Nat) : Prop where
  value {w : Width} {a b : Val} {flg : BitVec 16} (ha : a.toNat < 2 ^ w.bits) (hb : b.toNat < 2 ^ w.bits) :
    (f w a b flg).1.toNat = value w a.toNat b.toNat (getFlag .c flg)
  lt {w : Width} {a b : Val} {flg : BitVec 16} (ha : a.toNat < 2 ^ w.bits) (hb : b.toNat < 2 ^ w.bits) :
    (f w a b flg).1.toNat < 2 ^ w.bits
  flags {w : Width} {a b : Val} {flg : BitVec 16} (ha : a.toNat < 2 ^ w.bits) (hb : b.toNat < 2 ^ w.bits) :
    flags w a.toNat b.toNat (getFlag .c flg) (f w a b flg).2
  keeps (w : Width) (a b : Val) (flg : BitVec 16) (k : Nat) (hk : k ∉ changed) :
    (f w a b flg).2.getLsbD k = flg.getLsbD k

section

variable {i : Instr} {b0 : Byte} {w : Width} {f : Binary} {src dst : Opnd} {s : State} {imm : Val}
  {value : Width → Nat → Nat → Bool → Nat} {flags : Width → Nat → Nat → Bool → BitVec 16 → Prop} {changed : List Nat}

theorem writesTwo_of_aluG2 (hf : Computes f value flags changed) (hexec : exec i s = aluG2 b0 w f src dst s)
    (hi : Plain i [(.value w true, src), (.value w true, dst)] (inMem src + 2 * inMem dst)) (h : s.mem.wf = true)
    (hwf : i.wellFormed = true) : WritesTwo i w src dst value flags changed s := by
  obtain ⟨hsrc, hdst⟩ := hi.admits_two hwf
  obtain ⟨x, hx, -⟩ := resolve_of_admits_allow hsrc s
  obtain ⟨y, hy, -⟩ := resolve_of_admits_allow hdst s
  have hb : (adj (x.get s) x.width y.width).toNat = (x.get s).toNat % 2 ^ y.width.bits := adj_toNat (x.get_lt s) y.width
  have hlt : (adj (x.get s) x.width y.width).toNat < 2 ^ y.width.bits := hb ▸ mod_lt_two_pow _ _
  have hrun := hexec.trans (aluG2_resolved hx hy)
  obtain ⟨hget, hflg, hframe⟩ := end_of_write h (hf.lt (y.get_lt s) hlt) (hf.keeps _ _ _ s.flg)
    (2 + src.extLen + dst.extLen) (x.calls + 2 * y.calls)
  refine ⟨x, y, _, hx, hy, hi.completes hwf hrun, ?_, ?_, hframe⟩
  · rw [hget, hf.value (y.get_lt s) hlt, hb]
  · rw [hflg, ← hb]
    exact hf.flags (y.get_lt s) hlt

theorem testsTwo_of_testG2 (hf : Computes f value flags changed) (hexec : exec i s = testG2 b0 w f src dst s)
    (hi : Plain i [(.value w true, src), (.value w true, dst)] (inMem src + inMem dst)) (hwf : i.wellFormed = true) :
    TestsTwo i w src dst flags changed s := by
  obtain ⟨hsrc, hdst⟩ := hi.admits_two hwf
  obtain ⟨x, hx, -⟩ := resolve_of_admits_allow hsrc s
  obtain ⟨y, hy, -⟩ := resolve_of_admits_allow hdst s
  have hb : (adj (x.get s) x.width y.width).toNat = (x.get s).toNat % 2 ^ y.width.bits := adj_toNat (x.get_lt s) y.width
  have hrun := hexec.trans (testG2_resolved hx hy)
  refine ⟨x, y, _, hx, hy, hi.completes hwf hrun, ?_, frame_advance (frame_setFlg (hf.keeps _ _ _ _)) _ _⟩
  rw [advance_flg, ← hb]
  exact hf.flags (y.get_lt s) (hb ▸ mod_lt_two_pow _ _)

theorem writesImm_of_aluImm (hf : Computes f value flags changed) (himm : imm.toNat < 2 ^ w.bits)
    (hexec : exec i s = aluImm b0 w f dst imm s) (hi : Plain i [(.value w true, dst)] (2 * inMem dst))
    (h : s.mem.wf = true) (hwf : i.wellFormed = true) : WritesImm i w dst imm.toNat value flags changed s := by
  obtain ⟨y, hy, -⟩ := resolve_of_admits_allow (hi.admits_one hwf) s
  have hb := adj_imm_toNat hy himm
  have hlt : (adj imm w y.width).toNat < 2 ^ y.width.bits := by
    rw [adj_toNat himm]
    exact mod_lt_two_pow _ _
  have hrun := hexec.trans (aluImm_resolved hy)
  obtain ⟨hget, hflg, hframe⟩ := end_of_write h (hf.lt (y.get_lt s) hlt) (hf.keeps _ _ _ s.flg)
    (2 + dst.extLen + w.bytes) (2 * y.calls)
  refine ⟨y, _, hy, hi.completes hwf hrun, ?_, ?_, hframe⟩
  · rw [hget, hf.value (y.get_lt s) hlt, hb]
  · rw [hflg, ← hb]
    exact hf.flags (y.get_lt s) hlt

theorem testsImm_of_testImm (hf : Computes f value flags changed) (himm : imm.toNat < 2 ^ w.bits)
    (hexec : exec i s = testImm b0 w f dst imm s) (hi : Plain i [(.value w true, dst)] (inMem dst))
    (hwf : i.wellFormed = true) : TestsImm i w dst imm.toNat flags changed s := by
  obtain ⟨y, hy, -⟩ := resolve_of_admits_allow (hi.admits_one hwf) s
  have hb := adj_imm_toNat hy himm
  have hrun := hexec.trans (testImm_resolved hy)
  refine ⟨y, _, hy, hi.completes hwf hrun, ?_, frame_advance (frame_setFlg (hf.keeps _ _ _ _)) _ _⟩
  rw [advance_flg, ← hb]
  refine hf.flags (y.get_lt s) ?_
  rw [adj_toNat himm]
  exact mod_lt_two_pow _ _

end

/-! ## Operations on one value -/

/-- `f` at the width `w`: `value` relates old and new value, `flags` old and new value to FLG, and only the bits `changed` of
FLG are written. -/
structure ComputesOne (f : Unary) (w : Width) (value : Nat → Nat → Prop) (flags : Nat → Nat → BitVec 16 → Prop)
    (changed : List Nat) : Prop where
  value {a : Val} {flg : BitVec 16} (ha : a.toNat < 2 ^ w.bits) : value a.toNat (f w a flg).1.toNat
  lt {a : Val} {flg : BitVec 16} (ha : a.toNat < 2 ^ w.bits) : (f w a flg).1.toNat < 2 ^ w.bits
  flags {a : Val} {flg : BitVec 16} (ha : a.toNat < 2 ^ w.bits) : flags a.toNat (f w a flg).1.toNat (f w a flg).2
  keeps (a : Val) (flg : BitVec 16) (k : Nat) (hk : k ∉ changed) : (f w a flg).2.getLsbD k = flg.getLsbD k

theorem writesOne_of_aluOne {i : Instr} {b0 : Byte} {w : Width} {p : Promote} {f : Unary} {dst : Opnd} {s : State} {y : Acc}
    {value : Width → Nat → Nat → Prop} {flags : Width → Nat → Nat → BitVec 16 → Prop} {changed : List Nat}
    {ops : List (OpndUse × Opnd)} (hf : ComputesOne f y.width (value y.width) (flags y.width) changed)
    (hy : resolve dst w (lmValue w) p s = some y) (hexec : exec i s = aluOne b0 w p f dst s)
    (hi : Plain i ops (2 * inMem dst)) (h : s.mem.wf = true) (hwf : i.wellFormed = true) :
    WritesOne i w p dst value flags changed s := by
  have hrun := hexec.trans (aluOne_resolved hy)
  obtain ⟨hget, hflg, hframe⟩ := end_of_write h (hf.lt (flg := s.flg) (y.get_lt s)) (hf.keeps _ s.flg)
    (2 + dst.extLen) (2 * y.calls)
  refine ⟨y, _, hy, hi.completes hwf hrun, ?_, ?_, hframe⟩
  · rw [hget]
    exact hf.value (y.get_lt s)
  · rw [hget, hflg]
    exact hf.flags (y.get_lt s)

/-! ## Flags of a result -/

theorem resultFlags_of_bits {w : Width} {r : Val} {flg : BitVec 16} (hr : r.toNat < 2 ^ w.bits)
    (hz : getFlag .z flg = isZero w r) (hs : getFlag .s flg = signBit w r) : ResultFlags w r.toNat flg :=
  ⟨hz.trans (isZero_eq hr), hs.trans (signBit_eq hr)⟩

theorem resultFlags_flagsLogic {w : Width} {r : Val} (hr : r.toNat < 2 ^ w.bits) (flg : BitVec 16) :
    ResultFlags w r.toNat (flagsLogic w r flg) :=
  resultFlags_of_bits hr (flagsLogic_getLsbD w r flg 1) (flagsLogic_getLsbD w r flg 2)

theorem flagsLogic_keeps (w : Width) (r : Val) (flg : BitVec 16) (k : Nat) (hk : k ∉ zs) :
    (flagsLogic w r flg).getLsbD k = flg.getLsbD k := by
  simp only [zs, List.mem_cons, List.not_mem_nil, or_false, not_or] at hk
  rw [flagsLogic_getLsbD, if_neg hk.2, if_neg hk.1]

theorem flagsArith_keeps (tab : List (Bool × Bool)) (w : Width) (a b r : Val) (flg : BitVec 16) (k : Nat) (hk : k ∉ czso) :
    (flagsArith tab w a b r flg).getLsbD k = flg.getLsbD k := by
  simp only [czso, List.mem_cons, List.not_mem_nil, or_false, not_or] at hk
  obtain ⟨h0, h1, h2, h3⟩ := hk
  rw [flagsArith_getLsbD, if_neg h2, if_neg h1, if_neg h3, if_neg h0]

/-- C and O are the table's entry, Z and S tell of the result (R203). -/
theorem flagsArith_of_entry {tab : List (Bool × Bool)} {w : Width} {a b r : Val} {c o : Bool}
    (h : tab[signIndex w a b r]? = some (c, o)) (hr : r.toNat < 2 ^ w.bits) (flg : BitVec 16) :
    ResultFlags w r.toNat (flagsArith tab w a b r flg) ∧ getFlag .c (flagsArith tab w a b r flg) = c ∧
      getFlag .o (flagsArith tab w a b r flg) = o := by
  have hentry : tab.getD (signIndex w a b r) (false, false) = (c, o) := by rw [List.getD_eq_getElem?_getD, h, Option.getD_some]
  refine ⟨resultFlags_of_bits hr (flagsArith_getLsbD tab w a b r flg 1) (flagsArith_getLsbD tab w a b r flg 2), ?_, ?_⟩
  · exact (flagsArith_getLsbD tab w a b r flg 0).trans (congrArg Prod.fst hentry)
  · exact (flagsArith_getLsbD tab w a b r flg 3).trans (congrArg Prod.snd hentry)

theorem sumFlags_flagsArith {w : Width} {a b r : Val} {k : Nat} (ha : a.toNat < 2 ^ w.bits) (hb : b.toNat < 2 ^ w.bits)
    (hk : k ≤ 1) (hr : r.toNat = (a.toNat + b.toNat + k) % 2 ^ w.bits) (flg : BitVec 16) :
    SumFlags w a.toNat b.toNat k (flagsArith addTab w a b r flg) := by
  obtain ⟨hres, hc, ho⟩ := flagsArith_of_entry (addTab_signIndex ha hb hk hr) (hr ▸ mod_lt_two_pow _ _) flg
  exact ⟨hr ▸ hres, hc, ho⟩

/-- The difference modulo `2^w`, written without negative numbers as in the statements, is the integer difference. -/
theorem difference_mod {a b k M : Nat} (hb : b < M) (hk : k ≤ 1) :
    (((a + M - b - k) % M : Nat) : Int) = ((a : Int) - b - k) % M := by
  rw [Int.natCast_mod, show ((a + M - b - k : Nat) : Int) = (a : Int) - b - k + M by omega, Int.add_emod_right]

theorem differenceFlags_flagsArith {w : Width} {a b r : Val} {k : Nat} (ha : a.toNat < 2 ^ w.bits)
    (hb : b.toNat < 2 ^ w.bits) (hk : k ≤ 1) (hr : r.toNat = (a.toNat + 2 ^ w.bits - b.toNat - k) % 2 ^ w.bits)
    (flg : BitVec 16) : DifferenceFlags w a.toNat b.toNat k (flagsArith subTab w a b r flg) := by
  have hint : (r.toNat : Int) = ((a.toNat : Int) - b.toNat - k) % 2 ^ w.bits := by
    rw [hr, difference_mod hb hk, Nat.cast_pow, Nat.cast_ofNat]
  obtain ⟨hres, hc, ho⟩ := flagsArith_of_entry (subTab_signIndex ha hb hk hint) (hr ▸ mod_lt_two_pow _ _) flg
  exact ⟨hr ▸ hres, hc, ho⟩

end Sys2Proof.Machine
end

section
/-! The integer arithmetic (44_arithmetic.md R260 to R270): what each operation computes, and ADD, ADC, SUB, SBB, CMP, ADDQ and
NEG of each size. -/

namespace Sys2Proof.Machine

open Sys2Proof Sys2Proof.Claims Sys2Proof.Laws

/-! ## Families of instructions, one for each width -/

/-- Every size of a two-operand instruction is `aluG2` with the operation `f`. -/
def RunsAluG2 (of : Width → Opnd → Opnd → Instr) (f : Binary) : Prop :=
  ∀ w src dst, (∃ b0, ∀ s, exec (of w src dst) s = aluG2 b0 w f src dst s) ∧
    Plain (of w src dst) [(.value w true, src), (.value w true, dst)] (inMem src + 2 * inMem dst)

/-- Every size of a two-operand instruction is `testG2` with the operation `f`. -/
def RunsTestG2 (of : Width → Opnd → Opnd → Instr) (f : Binary) : Prop :=
  ∀ w src dst, (∃ b0, ∀ s, exec (of w src dst) s = testG2 b0 w f src dst s) ∧
    Plain (of w src dst) [(.value w true, src), (.value w true, dst)] (inMem src + inMem dst)

/-- Every size of an instruction with an immediate is `aluImm` with the operation `f`. -/
def RunsAluImm (of : (w : Width) → Opnd → BitVec w.bits → Instr) (f : Binary) : Prop :=
  ∀ w dst imm, (∃ b0 v, v.toNat = imm.toNat ∧ ∀ s, exec (of w dst imm) s = aluImm b0 w f dst v s) ∧
    Plain (of w dst imm) [(.value w true, dst)] (2 * inMem dst)

/-- Every size of an instruction with an immediate is `testImm` with the operation `f`. -/
def RunsTestImm (of : (w : Width) → Opnd → BitVec w.bits → Instr) (f : Binary) : Prop :=
  ∀ w dst imm, (∃ b0 v, v.toNat = imm.toNat ∧ ∀ s, exec (of w dst imm) s = testImm b0 w f dst v s) ∧
    Plain (of w dst imm) [(.value w true, dst)] (inMem dst)

/-- Every size of a one-operand instruction is `aluOne` with the operation `f`. -/
def RunsAluOne (of : Width → Opnd → Instr) (promote : Bool) (f : Unary) : Prop :=
  ∀ w dst, (∃ b0, ∀ s, exec (of w dst) s = aluOne b0 w (promoteOf promote) f dst s) ∧
    Plain (of w dst) [(.value w promote, dst)] (2 * inMem dst)

section

variable {f : Binary} {value : Width → Nat → Nat → Bool → Nat} {flags : Width → Nat → Nat → Bool → BitVec 16 → Prop}
  {changed : List Nat} {w : Width} {src dst : Opnd} {s : State}

theorem RunsAluG2.writesTwo {of : Width → Opnd → Opnd → Instr} (hof : RunsAluG2 of f) (hf : Computes f value flags changed)
    (h : s.mem.wf = true) (hwf : (of w src dst).wellFormed = true) :
    WritesTwo (of w src dst) w src dst value flags changed s :=
  let ⟨⟨_, hexec⟩, hi⟩ := hof w src dst
  writesTwo_of_aluG2 hf (hexec s) hi h hwf

theorem RunsTestG2.testsTwo {of : Width → Opnd → Opnd → Instr} (hof : RunsTestG2 of f) (hf : Computes f value flags changed)
    (hwf : (of w src dst).wellFormed = true) : TestsTwo (of w src dst) w src dst flags changed s :=
  let ⟨⟨_, hexec⟩, hi⟩ := hof w src dst
  testsTwo_of_testG2 hf (hexec s) hi hwf

theorem RunsAluImm.writesImm {of : (w : Width) → Opnd → BitVec w.bits → Instr} (hof : RunsAluImm of f)
    (hf : Computes f value flags changed) (h : s.mem.wf = true) {imm : BitVec w.bits}
    (hwf : (of w dst imm).wellFormed = true) : WritesImm (of w dst imm) w dst imm.toNat value flags changed s := by
  obtain ⟨⟨_, v, hv, hexec⟩, hi⟩ := hof w dst imm
  rw [← hv]
  exact writesImm_of_aluImm hf (hv ▸ imm.isLt) (hexec s) hi h hwf

theorem RunsTestImm.testsImm {of : (w : Width) → Opnd → BitVec w.bits → Instr} (hof : RunsTestImm of f)
    (hf : Computes f value flags changed) {imm : BitVec w.bits} (hwf : (of w dst imm).wellFormed = true) :
    TestsImm (of w dst imm) w dst imm.toNat flags changed s := by
  obtain ⟨⟨_, v, hv, hexec⟩, hi⟩ := hof w dst imm
  rw [← hv]
  exact testsImm_of_testImm hf (hv ▸ imm.isLt) (hexec s) hi hwf

end

theorem RunsAluOne.writesOne {of : Width → Opnd → Instr} {promote : Bool} {f : Unary} (hof : RunsAluOne of promote f)
    {w : Width} {dst : Opnd} {s : State} {value : Width → Nat → Nat → Prop} {flags : Width → Nat → Nat → BitVec 16 → Prop}
    {changed : List Nat}
    (hf : ∀ y, resolve dst w (lmValue w) (promoteOf promote) s = some y →
      ComputesOne f y.width (value y.width) (flags y.width) changed)
    (h : s.mem.wf = true) (hwf : (of w dst).wellFormed = true) :
    WritesOne (of w dst) w (promoteOf promote) dst value flags changed s := by
  obtain ⟨⟨_, hexec⟩, hi⟩ := hof w dst
  have hadm : (resolve dst w (lmValue w) (promoteOf promote) s).isSome = true :=
    (resolve_isSome dst w promote s).trans (hi.admits_one hwf)
  obtain ⟨y, hy⟩ := Option.isSome_iff_exists.1 hadm
  exact writesOne_of_aluOne (hf y hy) hy (hexec s) hi h hwf

/-! ## Values -/

theorem two_pow_bits_dvd (w : Width) : 2 ^ w.bits ∣ 2 ^ 32 := by cases w <;> decide

/-- A number brought to 32 bits and then to a width. -/
theorem trunc_toNat_of_mod {w : Width} {v : Val} {n : Nat} (h : v.toNat = n % 2 ^ 32) :
    (trunc w v).toNat = n % 2 ^ w.bits := by
  rw [trunc_toNat, h, Nat.mod_mod_of_dvd _ (two_pow_bits_dvd w)]

theorem trunc_toInt (w : Width) (v : Val) : ((trunc w v).toNat : Int) = v.toInt % 2 ^ w.bits := by
  have hdvd : ((2 : Int) ^ w.bits) ∣ 2 ^ 32 := by exact_mod_cast two_pow_bits_dvd w
  rw [trunc_toNat, BitVec.toInt_eq_toNat_bmod, Int.natCast_mod, Nat.cast_pow, Nat.cast_ofNat]
  refine (Int.emod_emod_of_dvd _ hdvd).symm.trans ?_
  rw [← Int.emod_emod_of_dvd (Int.bmod _ _) hdvd]
  exact congrArg (· % _) (Int.bmod_emod (x := (v.toNat : Int)) (m := 2 ^ 32)).symm

theorem toNat_carry (c : Bool) : (if c then 1#32 else 0#32).toNat = c.toNat := by cases c <;> rfl

theorem add_toNat (w : Width) (a b : Val) : (trunc w (a + b)).toNat = (a.toNat + b.toNat) % 2 ^ w.bits :=
  trunc_toNat_of_mod (BitVec.toNat_add a b)

theorem add_carry_toNat (w : Width) (a b : Val) (c : Bool) :
    (trunc w (a + b + (if c then 1#32 else 0#32))).toNat = (a.toNat + b.toNat + c.toNat) % 2 ^ w.bits := by
  refine trunc_toNat_of_mod ?_
  rw [BitVec.toNat_add, BitVec.toNat_add, toNat_carry, Nat.mod_add_mod]

theorem sub_toNat {w : Width} {a b : Val} (hb : b.toNat < 2 ^ w.bits) :
    (trunc w (a - b)).toNat = (a.toNat + 2 ^ w.bits - b.toNat) % 2 ^ w.bits := by
  rw [trunc_toNat, BitVec.toNat_sub]
  have ha := a.isLt
  cases w <;> simp only [Width.bits] at hb ⊢ <;> omega

theorem sub_borrow_toNat {w : Width} {a b : Val} (hb : b.toNat < 2 ^ w.bits) (c : Bool) :
    (trunc w (a - b - (if c then 0#32 else 1#32))).toNat =
      (a.toNat + 2 ^ w.bits - b.toNat - (!c).toNat) % 2 ^ w.bits := by
  have hk : (if c then 0#32 else 1#32).toNat = (!c).toNat := by cases c <;> rfl
  have hle : (!c).toNat ≤ 1 := Bool.toNat_le _
  rw [trunc_toNat, BitVec.toNat_sub, BitVec.toNat_sub, hk]
  have ha := a.isLt
  cases w <;> simp only [Width.bits] at hb ⊢ <;> omega

/-! ## What the operations compute -/

theorem addOp_computes :
    Computes addOp (fun w a b _ => (a + b) % 2 ^ w.bits) (fun w a b _ => SumFlags w a b 0) czso where
  value _ _ := add_toNat ..
  lt _ _ := trunc_lt _ _
  flags ha hb := sumFlags_flagsArith ha hb (by decide) (add_toNat ..) _
  keeps _ _ _ _ := flagsArith_keeps _ _ _ _ _ _

theorem adcOp_computes :
    Computes adcOp (fun w a b c => (a + b + c.toNat) % 2 ^ w.bits) (fun w a b c => SumFlags w a b c.toNat) czso where
  value _ _ := add_carry_toNat ..
  lt _ _ := trunc_lt _ _
  flags ha hb := sumFlags_flagsArith ha hb (Bool.toNat_le _) (add_carry_toNat ..) _
  keeps _ _ _ _ := flagsArith_keeps _ _ _ _ _ _

theorem subOp_computes :
    Computes subOp (fun w a b _ => (a + 2 ^ w.bits - b) % 2 ^ w.bits) (fun w a b _ => DifferenceFlags w a b 0) czso where
  value _ hb := sub_toNat hb
  lt _ _ := trunc_lt _ _
  flags ha hb := differenceFlags_flagsArith ha hb (by decide) (sub_toNat hb) _
  keeps _ _ _ _ := flagsArith_keeps _ _ _ _ _ _

theorem sbbOp_computes :
    Computes sbbOp (fun w a b c => (a + 2 ^ w.bits - b - (!c).toNat) % 2 ^ w.bits)
      (fun w a b c => DifferenceFlags w a b (!c).toNat) czso where
  value _ hb := sub_borrow_toNat hb _
  lt _ _ := trunc_lt _ _
  flags ha hb := differenceFlags_flagsArith ha hb (Bool.toNat_le _) (sub_borrow_toNat hb _) _
  keeps _ _ _ _ := flagsArith_keeps _ _ _ _ _ _

/-- The constant of ADDQ at the operation width (30_encoding.md R121 (b)). -/
theorem constant_toNat (imm : BitVec 4) (w : Width) :
    ((trunc w (imm.signExtend 32)).toNat : Int) = imm.toInt % 2 ^ w.bits := by
  rw [trunc_toInt, BitVec.toInt_signExtend_of_le (by decide)]

theorem addqOp_computes (imm : BitVec 4) (w : Width) :
    ComputesOne (addqOp imm) w (fun a r => (r : Int) = ((a : Int) + imm.toInt) % 2 ^ w.bits)
      (fun a _ => SumFlags w a (imm.toInt % 2 ^ w.bits).toNat 0) czso where
  value {a flg} ha := by
    rw [addqOp, addOp_computes.value ha (trunc_lt _ _), Int.natCast_mod, Nat.cast_add, constant_toNat, Nat.cast_pow,
      Nat.cast_ofNat, Int.add_emod_emod]
  lt ha := addOp_computes.lt ha (trunc_lt _ _)
  flags {a flg} ha := by
    rw [← constant_toNat, Int.toNat_natCast]
    exact addOp_computes.flags ha (trunc_lt _ _)
  keeps _ _ := addOp_computes.keeps _ _ _ _

theorem negOp_computes (w : Width) :
    ComputesOne negOp w (fun a r => (r : Int) = -(a : Int) % 2 ^ w.bits) (fun a _ => DifferenceFlags w 0 a 0) czso where
  value {a flg} ha := by
    rw [negOp, subOp_computes.value (Nat.two_pow_pos _) ha]
    refine (difference_mod (a := 0) (k := 0) ha (by decide)).trans ?_
    simp
  lt ha := subOp_computes.lt (Nat.two_pow_pos _) ha
  flags ha := subOp_computes.flags (a := 0#32) (Nat.two_pow_pos _) ha
  keeps _ _ := subOp_computes.keeps _ _ _ _

/-! ## The instructions -/

theorem addOf_runs : RunsAluG2 addOf addOp := fun w _ _ => by cases w <;> exact ⟨⟨_, fun _ => rfl⟩, rfl, rfl, rfl, rfl⟩
theorem adcOf_runs : RunsAluG2 adcOf adcOp := fun w _ _ => by cases w <;> exact ⟨⟨_, fun _ => rfl⟩, rfl, rfl, rfl, rfl⟩
theorem subOf_runs : RunsAluG2 subOf subOp := fun w _ _ => by cases w <;> exact ⟨⟨_, fun _ => rfl⟩, rfl, rfl, rfl, rfl⟩
theorem sbbOf_runs : RunsAluG2 sbbOf sbbOp := fun w _ _ => by cases w <;> exact ⟨⟨_, fun _ => rfl⟩, rfl, rfl, rfl, rfl⟩
theorem cmpOf_runs : RunsTestG2 cmpOf subOp := fun w _ _ => by cases w <;> exact ⟨⟨_, fun _ => rfl⟩, rfl, rfl, rfl, rfl⟩

theorem toNat_carrier {n : Nat} (h : n ≤ 32) (imm : BitVec n) : (imm.setWidth 32).toNat = imm.toNat :=
  BitVec.toNat_setWidth_of_le h

theorem addImmOf_runs : RunsAluImm addImmOf addOp
  | .byte, _, imm | .word, _, imm => ⟨⟨_, _, toNat_carrier (by decide) imm, fun _ => rfl⟩, rfl, rfl, rfl, rfl⟩
  | .long, _, _ => ⟨⟨_, _, rfl, fun _ => rfl⟩, rfl, rfl, rfl, rfl⟩

theorem subImmOf_runs : RunsAluImm subImmOf subOp
  | .byte, _, imm | .word, _, imm => ⟨⟨_, _, toNat_carrier (by decide) imm, fun _ => rfl⟩, rfl, rfl, rfl, rfl⟩
  | .long, _, _ => ⟨⟨_, _, rfl, fun _ => rfl⟩, rfl, rfl, rfl, rfl⟩

theorem cmpImmOf_runs : RunsTestImm cmpImmOf subOp
  | .byte, _, imm | .word, _, imm => ⟨⟨_, _, toNat_carrier (by decide) imm, fun _ => rfl⟩, rfl, rfl, rfl, rfl⟩
  | .long, _, _ => ⟨⟨_, _, rfl, fun _ => rfl⟩, rfl, rfl, rfl, rfl⟩

theorem addqOf_runs (imm : BitVec 4) : RunsAluOne (addqOf · imm) true (addqOp imm) := fun w _ => by
  cases w <;> exact ⟨⟨_, fun _ => rfl⟩, rfl, rfl, rfl, rfl⟩

theorem negOf_runs : RunsAluOne negOf true negOp := fun w _ => by
  cases w <;> exact ⟨⟨_, fun _ => rfl⟩, rfl, rfl, rfl, rfl⟩

/-- Settles O27. -/
theorem addAdcResult : Obligations.AddAdcResult := fun _ _ _ _ h =>
  ⟨addOf_runs.writesTwo addOp_computes h, adcOf_runs.writesTwo adcOp_computes h⟩

/-- Settles O28. -/
theorem subSbbResult : Obligations.SubSbbResult := fun _ _ _ _ h =>
  ⟨subOf_runs.writesTwo subOp_computes h, sbbOf_runs.writesTwo sbbOp_computes h⟩

/-- Settles O29. -/
theorem cmpFlags : Obligations.CmpFlags := fun _ _ _ _ _ =>
  ⟨cmpOf_runs.testsTwo subOp_computes, cmpImmOf_runs.testsImm subOp_computes⟩

/-- Settles O30. -/
theorem addSubImmediateResult : Obligations.AddSubImmediateResult := fun _ _ _ _ h =>
  ⟨addImmOf_runs.writesImm addOp_computes h, subImmOf_runs.writesImm subOp_computes h⟩

/-- Settles O31. -/
theorem addqNegResult : Obligations.AddqNegResult := fun _ imm _ _ h =>
  ⟨(addqOf_runs imm).writesOne (fun y _ => addqOp_computes imm y.width) h,
    negOf_runs.writesOne (fun y _ => negOp_computes y.width) h⟩

end Sys2Proof.Machine
end

section
/-! The logical instructions, shifts and rotates (45_logic_shift.md). -/

namespace Sys2Proof.Machine

open Sys2Proof Sys2Proof.Claims Sys2Proof.Laws

/-! ## Logical operations -/

/-- A bitwise operation that keeps numbers below a power of 2, with FlagsLogic on its result. -/
theorem computes_of_bitwise {f : Binary} {g : Val → Val → Val} {n : Nat → Nat → Nat}
    (hf : ∀ w a b flg, f w a b flg = (g a b, flagsLogic w (g a b) flg)) (hg : ∀ a b, (g a b).toNat = n a.toNat b.toNat)
    (hlt : ∀ {a b m}, a < 2 ^ m → b < 2 ^ m → n a b < 2 ^ m) :
    Computes f (fun _ a b _ => n a b) (fun w a b _ => ResultFlags w (n a b)) zs where
  value _ _ := by rw [hf, hg]
  lt ha hb := by
    rw [hf, hg]
    exact hlt ha hb
  flags ha hb := by
    rw [hf, ← hg]
    exact resultFlags_flagsLogic (by rw [hg]; exact hlt ha hb) _
  keeps _ _ _ _ := by
    rw [hf]
    exact flagsLogic_keeps _ _ _

theorem andOp_computes : Computes andOp (fun _ a b _ => a &&& b) (fun w a b _ => ResultFlags w (a &&& b)) zs :=
  computes_of_bitwise (fun _ _ _ _ => rfl) BitVec.toNat_and fun _ hb => Nat.and_lt_two_pow _ hb

theorem orOp_computes : Computes orOp (fun _ a b _ => a ||| b) (fun w a b _ => ResultFlags w (a ||| b)) zs :=
  computes_of_bitwise (fun _ _ _ _ => rfl) BitVec.toNat_or Nat.or_lt_two_pow

theorem xorOp_computes : Computes xorOp (fun _ a b _ => a ^^^ b) (fun w a b _ => ResultFlags w (a ^^^ b)) zs :=
  computes_of_bitwise (fun _ _ _ _ => rfl) BitVec.toNat_xor Nat.xor_lt_two_pow

theorem andOf_runs : RunsAluG2 andOf andOp := fun w _ _ => by cases w <;> exact ⟨⟨_, fun _ => rfl⟩, rfl, rfl, rfl, rfl⟩
theorem orOf_runs : RunsAluG2 orOf orOp := fun w _ _ => by cases w <;> exact ⟨⟨_, fun _ => rfl⟩, rfl, rfl, rfl, rfl⟩
theorem xorOf_runs : RunsAluG2 xorOf xorOp := fun w _ _ => by cases w <;> exact ⟨⟨_, fun _ => rfl⟩, rfl, rfl, rfl, rfl⟩
theorem tstOf_runs : RunsTestG2 tstOf andOp := fun w _ _ => by cases w <;> exact ⟨⟨_, fun _ => rfl⟩, rfl, rfl, rfl, rfl⟩

theorem andImmOf_runs : RunsAluImm andImmOf andOp
  | .byte, _, imm | .word, _, imm => ⟨⟨_, _, toNat_carrier (by decide) imm, fun _ => rfl⟩, rfl, rfl, rfl, rfl⟩
  | .long, _, _ => ⟨⟨_, _, rfl, fun _ => rfl⟩, rfl, rfl, rfl, rfl⟩

theorem orImmOf_runs : RunsAluImm orImmOf orOp
  | .byte, _, imm | .word, _, imm => ⟨⟨_, _, toNat_carrier (by decide) imm, fun _ => rfl⟩, rfl, rfl, rfl, rfl⟩
  | .long, _, _ => ⟨⟨_, _, rfl, fun _ => rfl⟩, rfl, rfl, rfl, rfl⟩

theorem xorImmOf_runs : RunsAluImm xorImmOf xorOp
  | .byte, _, imm | .word, _, imm => ⟨⟨_, _, toNat_carrier (by decide) imm, fun _ => rfl⟩, rfl, rfl, rfl, rfl⟩
  | .long, _, _ => ⟨⟨_, _, rfl, fun _ => rfl⟩, rfl, rfl, rfl, rfl⟩

theorem tstImmOf_runs : RunsTestImm tstImmOf andOp
  | .byte, _, imm | .word, _, imm => ⟨⟨_, _, toNat_carrier (by decide) imm, fun _ => rfl⟩, rfl, rfl, rfl, rfl⟩
  | .long, _, _ => ⟨⟨_, _, rfl, fun _ => rfl⟩, rfl, rfl, rfl, rfl⟩

/-- Settles O34. -/
theorem logicResult : Obligations.LogicResult := fun _ _ _ _ _ h =>
  ⟨andOf_runs.writesTwo andOp_computes h, orOf_runs.writesTwo orOp_computes h, xorOf_runs.writesTwo xorOp_computes h,
    andImmOf_runs.writesImm andOp_computes h, orImmOf_runs.writesImm orOp_computes h,
    xorImmOf_runs.writesImm xorOp_computes h⟩

/-- Settles O35. -/
theorem tstFlags : Obligations.TstFlags := fun _ _ _ _ _ =>
  ⟨tstOf_runs.testsTwo andOp_computes, tstImmOf_runs.testsImm andOp_computes⟩

/-! ## NOT -/

theorem not_toNat {w : Width} {a : Val} (ha : a.toNat < 2 ^ w.bits) : (trunc w (~~~a)).toNat = 2 ^ w.bits - 1 - a.toNat := by
  rw [trunc_toNat, BitVec.toNat_not]
  cases w <;> simp only [Width.bits] at ha ⊢ <;> omega

/-- An operation that is FlagsLogic on a value `g` below the width. -/
theorem computesOne_of_value {f : Unary} {w : Width} {g : Val → Val} {value : Nat → Nat → Prop}
    (hf : ∀ a flg, f w a flg = (g a, flagsLogic w (g a) flg))
    (hvalue : ∀ {a : Val}, a.toNat < 2 ^ w.bits → value a.toNat (g a).toNat)
    (hlt : ∀ {a : Val}, a.toNat < 2 ^ w.bits → (g a).toNat < 2 ^ w.bits) :
    ComputesOne f w value (fun _ r => ResultFlags w r) zs where
  value ha := by
    rw [hf]
    exact hvalue ha
  lt ha := by
    rw [hf]
    exact hlt ha
  flags ha := by
    rw [hf]
    exact resultFlags_flagsLogic (hlt ha) _
  keeps _ _ := by
    rw [hf]
    exact flagsLogic_keeps _ _ _

theorem notOf_runs : RunsAluOne notOf true notOp := fun w _ => by
  cases w <;> exact ⟨⟨_, fun _ => rfl⟩, rfl, rfl, rfl, rfl⟩

/-- Settles O36. -/
theorem notResult : Obligations.NotResult := fun _ _ _ h =>
  notOf_runs.writesOne (fun _ _ => computesOne_of_value (fun _ _ => rfl) not_toNat fun _ => trunc_lt _ _) h

/-! ## Shifts -/

theorem shl_toNat (n : Nat) (w : Width) (a : Val) : (shlVal n w a).toNat = a.toNat * 2 ^ n % 2 ^ w.bits := by
  refine trunc_toNat_of_mod ?_
  rw [BitVec.toNat_shiftLeft, Nat.shiftLeft_eq]

theorem shr_toNat (n : Nat) (w : Width) (a : Val) : (shrVal n w a).toNat = a.toNat / 2 ^ n := by
  rw [shrVal, BitVec.toNat_ushiftRight, Nat.shiftRight_eq_div_pow]

theorem sext_toInt {w : Width} {a : Val} (ha : a.toNat < 2 ^ w.bits) : (sext w a).toInt = signed w a.toNat := by
  cases w with
  | byte =>
    have e : (a.setWidth 8).toNat = a.toNat := (BitVec.toNat_setWidth 8 a).trans (Nat.mod_eq_of_lt ha)
    rw [sext, BitVec.toInt_signExtend_of_le (by decide), BitVec.toInt_eq_toNat_cond, e, signed]
    simp only [Width.bits]
    omega
  | word =>
    have e : (a.setWidth 16).toNat = a.toNat := (BitVec.toNat_setWidth 16 a).trans (Nat.mod_eq_of_lt ha)
    rw [sext, BitVec.toInt_signExtend_of_le (by decide), BitVec.toInt_eq_toNat_cond, e, signed]
    simp only [Width.bits]
    omega
  | long =>
    rw [sext, BitVec.toInt_eq_toNat_cond, signed]
    simp only [Width.bits]
    omega

theorem sar_toNat (n : Nat) {w : Width} {a : Val} (ha : a.toNat < 2 ^ w.bits) :
    ((sarVal n w a).toNat : Int) = signed w a.toNat / 2 ^ n % 2 ^ w.bits := by
  rw [sarVal, trunc_toInt, BitVec.toInt_sshiftRight, sext_toInt ha, Int.shiftRight_eq_div_pow]
  norm_cast

theorem shlOf_runs (n : BitVec 4) : RunsAluOne (shlOf · n) false (shiftOp shlVal n) := fun w _ => by
  cases w <;> exact ⟨⟨_, fun _ => rfl⟩, rfl, rfl, rfl, rfl⟩
theorem shrOf_runs (n : BitVec 4) : RunsAluOne (shrOf · n) false (shiftOp shrVal n) := fun w _ => by
  cases w <;> exact ⟨⟨_, fun _ => rfl⟩, rfl, rfl, rfl, rfl⟩
theorem sarOf_runs (n : BitVec 4) : RunsAluOne (sarOf · n) false (shiftOp sarVal n) := fun w _ => by
  cases w <;> exact ⟨⟨_, fun _ => rfl⟩, rfl, rfl, rfl, rfl⟩
theorem rolOf_runs (n : BitVec 4) : RunsAluOne (rolOf · n) false (shiftOp rolVal n) := fun w _ => by
  cases w <;> exact ⟨⟨_, fun _ => rfl⟩, rfl, rfl, rfl, rfl⟩
theorem rorOf_runs (n : BitVec 4) : RunsAluOne (rorOf · n) false (shiftOp rorVal n) := fun w _ => by
  cases w <;> exact ⟨⟨_, fun _ => rfl⟩, rfl, rfl, rfl, rfl⟩

/-- Two one-operand instructions with the same use of their operand are well formed together. -/
theorem RunsAluOne.wellFormed {of of' : Width → Opnd → Instr} {promote : Bool} {f f' : Unary} (h : RunsAluOne of promote f)
    (h' : RunsAluOne of' promote f') {w : Width} {dst : Opnd} (hwf : (of w dst).wellFormed = true) :
    (of' w dst).wellFormed = true := by
  rw [(h' w dst).2.wellFormed, ← (h w dst).2.wellFormed]
  exact hwf

/-- A shift or rotate from what its value is at the width. -/
theorem shifts_of_value {of : Width → Opnd → Instr} {f : Nat → Width → Val → Val} {n : BitVec 4} {w : Width} {dst : Opnd}
    {s : State} {value : Nat → Nat → Prop} (hof : RunsAluOne of false (shiftOp f n))
    (hvalue : ∀ {a : Val}, a.toNat < 2 ^ w.bits → value a.toNat (f (count n) w a).toNat)
    (hlt : ∀ {a : Val}, a.toNat < 2 ^ w.bits → (f (count n) w a).toNat < 2 ^ w.bits)
    (h : s.mem.wf = true) (hwf : (of w dst).wellFormed = true) : Shifts (of w dst) w dst value s := by
  refine hof.writesOne (fun y hy => ?_) h hwf
  obtain rfl : y.width = w := resolve_width_forbid hy
  exact computesOne_of_value (fun _ _ => rfl) hvalue hlt

/-- Settles O37. -/
theorem shiftResult : Obligations.ShiftResult := fun _ n _ _ h hwf =>
  ⟨shifts_of_value (shlOf_runs n) (fun _ => shl_toNat ..) (fun _ => trunc_lt _ _) h hwf,
    shifts_of_value (shrOf_runs n) (fun _ => shr_toNat ..)
      (fun ha => shr_toNat .. ▸ Nat.lt_of_le_of_lt (Nat.div_le_self _ _) ha) h
      ((shlOf_runs n).wellFormed (shrOf_runs n) hwf),
    shifts_of_value (sarOf_runs n) (fun ha => sar_toNat _ ha) (fun _ => trunc_lt _ _) h
      ((shlOf_runs n).wellFormed (sarOf_runs n) hwf)⟩

/-! ## Rotates -/

theorem trunc_getLsbD (w : Width) (v : Val) (j : Nat) : (trunc w v).getLsbD j = (decide (j < w.bits) && v.getLsbD j) := by
  rw [BitVec.getLsbD, trunc_toNat, Nat.testBit_mod_two_pow]
  rfl

/-- A value below `2^w` has no bit from `w` on. -/
theorem getLsbD_of_lt {w : Width} {a : Val} (ha : a.toNat < 2 ^ w.bits) {j : Nat} (hj : w.bits ≤ j) : a.getLsbD j = false :=
  Nat.testBit_lt_two_pow (Nat.lt_of_lt_of_le ha (Nat.pow_le_pow_right (by decide) hj))

theorem rol_getLsbD {w : Width} {a : Val} (ha : a.toNat < 2 ^ w.bits) (n : Nat) {j : Nat} (hj : j < w.bits) :
    (rolVal n w a).getLsbD ((j + n) % w.bits) = a.getLsbD j := by
  have hbits : w.bits ≤ 32 := by cases w <;> decide
  have hk : n % w.bits < w.bits := Nat.mod_lt _ (by omega)
  rw [← Nat.add_mod_mod, rolVal]
  generalize n % w.bits = k at hk
  by_cases hk0 : k = 0
  · rw [if_pos hk0, hk0, Nat.add_zero, Nat.mod_eq_of_lt hj]
  rw [if_neg hk0, BitVec.getLsbD_or, trunc_getLsbD, BitVec.getLsbD_shiftLeft, BitVec.getLsbD_ushiftRight]
  by_cases hsum : j + k < w.bits
  · rw [Nat.mod_eq_of_lt hsum, getLsbD_of_lt ha (show w.bits ≤ w.bits - k + (j + k) by omega)]
    simp [hsum, show j + k < 32 by omega]
  · have hmod : (j + k) % w.bits = j + k - w.bits := by
      rw [Nat.mod_eq_sub_mod (by omega), Nat.mod_eq_of_lt (by omega)]
    rw [hmod, show w.bits - k + (j + k - w.bits) = j by omega]
    simp [show j + k - w.bits < k by omega]

theorem ror_getLsbD {w : Width} {a : Val} (ha : a.toNat < 2 ^ w.bits) (n : Nat) {j : Nat} (hj : j < w.bits) :
    (rorVal n w a).getLsbD j = a.getLsbD ((j + n) % w.bits) := by
  have hbits : w.bits ≤ 32 := by cases w <;> decide
  have hk : n % w.bits < w.bits := Nat.mod_lt _ (by omega)
  rw [← Nat.add_mod_mod, rorVal]
  generalize n % w.bits = k at hk
  by_cases hk0 : k = 0
  · rw [if_pos hk0, hk0, Nat.add_zero, Nat.mod_eq_of_lt hj]
  rw [if_neg hk0, BitVec.getLsbD_or, trunc_getLsbD, BitVec.getLsbD_shiftLeft, BitVec.getLsbD_ushiftRight]
  by_cases hsum : j + k < w.bits
  · rw [Nat.mod_eq_of_lt hsum, Nat.add_comm k j]
    simp [show j < w.bits - k by omega]
  · have hmod : (j + k) % w.bits = j + k - w.bits := by
      rw [Nat.mod_eq_sub_mod (by omega), Nat.mod_eq_of_lt (by omega)]
    rw [hmod, getLsbD_of_lt ha (show w.bits ≤ k + j by omega), show j - (w.bits - k) = j + k - w.bits by omega]
    simp [hj, show j < 32 by omega, show ¬ j < w.bits - k by omega]

theorem or_lt_bits {w : Width} {x y : Val} (hx : x.toNat < 2 ^ w.bits) (hy : y.toNat < 2 ^ w.bits) :
    (x ||| y).toNat < 2 ^ w.bits := by
  rw [BitVec.toNat_or]
  exact Nat.or_lt_two_pow hx hy

theorem rol_lt (n : Nat) {w : Width} {a : Val} (ha : a.toNat < 2 ^ w.bits) : (rolVal n w a).toNat < 2 ^ w.bits := by
  rw [rolVal]
  split
  · exact ha
  · exact or_lt_bits (trunc_lt _ _) (shr_toNat _ w a ▸ Nat.lt_of_le_of_lt (Nat.div_le_self _ _) ha)

theorem ror_lt (n : Nat) {w : Width} {a : Val} (ha : a.toNat < 2 ^ w.bits) : (rorVal n w a).toNat < 2 ^ w.bits := by
  rw [rorVal]
  split
  · exact ha
  · exact or_lt_bits (shr_toNat _ w a ▸ Nat.lt_of_le_of_lt (Nat.div_le_self _ _) ha) (trunc_lt _ _)

/-- Settles O38. -/
theorem rotateResult : Obligations.RotateResult := fun _ n _ _ h hwf =>
  ⟨shifts_of_value (rolOf_runs n) (fun ha _ hj => rol_getLsbD ha (count n) hj) (rol_lt _) h hwf,
    shifts_of_value (rorOf_runs n) (fun ha _ hj => ror_getLsbD ha (count n) hj) (ror_lt _) h
      ((rolOf_runs n).wellFormed (rorOf_runs n) hwf)⟩

end Sys2Proof.Machine
end

section
/-! Data movement, the stack and the control registers, bits and condition stores (43_data_movement.md, 46_bit.md). -/

namespace Sys2Proof.Machine

open Sys2Proof Sys2Proof.Claims Sys2Proof.Laws

/-! ## MOV -/

theorem movOf_runs (w : Width) (src dst : Opnd) :
    (∃ b0, ∀ s, exec (movOf w src dst) s = moveG2 b0 w src dst s) ∧
      Plain (movOf w src dst) [(.value w true, src), (.value w true, dst)] (inMem src + inMem dst) := by
  cases w <;> exact ⟨⟨_, fun _ => rfl⟩, rfl, rfl, rfl, rfl⟩

theorem movImmOf_runs : ∀ (w : Width) (dst : Opnd) (imm : BitVec w.bits),
    (∃ b0 v, v.toNat = imm.toNat ∧ ∀ s, exec (movImmOf w dst imm) s = moveImm b0 w dst v s) ∧
      Plain (movImmOf w dst imm) [(.value w true, dst)] (inMem dst)
  | .byte, _, imm | .word, _, imm => ⟨⟨_, _, toNat_carrier (by decide) imm, fun _ => rfl⟩, rfl, rfl, rfl, rfl⟩
  | .long, _, _ => ⟨⟨_, _, rfl, fun _ => rfl⟩, rfl, rfl, rfl, rfl⟩

/-- Settles O39. -/
theorem movResult : Obligations.MovResult := by
  intro w src dst imm s h
  refine ⟨fun hwf => ?_, fun hwf => ?_⟩
  · obtain ⟨⟨b0, hexec⟩, hi⟩ := movOf_runs w src dst
    obtain ⟨hsrc, hdst⟩ := hi.admits_two hwf
    obtain ⟨x, hx, -⟩ := resolve_of_admits_allow hsrc s
    obtain ⟨y, hy, -⟩ := resolve_of_admits_allow hdst s
    have hb : (adj (x.get s) x.width y.width).toNat = (x.get s).toNat % 2 ^ y.width.bits := adj_toNat (x.get_lt s) y.width
    have hlt : (adj (x.get s) x.width y.width).toNat < 2 ^ y.width.bits := hb ▸ mod_lt_two_pow _ _
    obtain ⟨hget, hflg, hframe⟩ := end_of_write h hlt (flagsLogic_keeps y.width (adj (x.get s) x.width y.width) s.flg)
      (2 + src.extLen + dst.extLen) (x.calls + y.calls)
    refine ⟨x, y, _, hx, hy, hi.completes hwf ((hexec s).trans (moveG2_resolved hx hy)), ?_, ?_, hframe⟩
    · rw [hget, hb]
    · rw [hget, hflg]
      exact resultFlags_flagsLogic hlt _
  · obtain ⟨⟨b0, v, hv, hexec⟩, hi⟩ := movImmOf_runs w dst imm
    have himm : v.toNat < 2 ^ w.bits := hv ▸ imm.isLt
    obtain ⟨y, hy, -⟩ := resolve_of_admits_allow (hi.admits_one hwf) s
    have hb : (adj v w y.width).toNat = imm.toNat := (adj_imm_toNat hy himm).trans hv
    have hlt : (adj v w y.width).toNat < 2 ^ y.width.bits := by
      rw [adj_toNat himm]
      exact mod_lt_two_pow _ _
    obtain ⟨hget, hflg, hframe⟩ := end_of_write h hlt (flagsLogic_keeps y.width (adj v w y.width) s.flg)
      (2 + dst.extLen + w.bytes) y.calls
    refine ⟨y, _, hy, hi.completes hwf ((hexec s).trans (moveImm_resolved hy)), ?_, ?_, hframe⟩
    · rw [hget, hb]
    · rw [hflg, ← hb]
      exact resultFlags_flagsLogic hlt _

/-! ## EXTS, EXTZ and LEA -/

/-- EXTS and EXTZ, from what the extension makes of the value read. -/
theorem extends_of_extendG2 {i : Instr} {b0 : Byte} {ws wd : Width} {ext : Width → Val → Val} {src dst : Opnd} {s : State}
    {value : Nat → Nat} (hext : ∀ {v : Val}, v.toNat < 2 ^ ws.bits → (trunc wd (ext ws v)).toNat = value v.toNat)
    (hwide : wd ≠ .byte) (hexec : exec i s = extendG2 b0 ws wd ext src dst s)
    (hi : Plain i [(.value ws false, src), (.value wd true, dst)] (inMem src + inMem dst)) (h : s.mem.wf = true)
    (hwf : i.wellFormed = true) : Extends i ws wd src dst value s := by
  obtain ⟨hsrc, hdst⟩ := hi.admits_two hwf
  obtain ⟨x, hx, -⟩ := resolve_of_admits_forbid hsrc s
  obtain ⟨y, hy, -⟩ := resolve_of_admits_allow hdst s
  have hb : (trunc wd (ext ws (x.get s))).toNat = value (x.get s).toNat := hext (resolve_width_forbid hx ▸ x.get_lt s)
  have hlt : (trunc wd (ext ws (x.get s))).toNat < 2 ^ y.width.bits := by
    rw [resolve_width_of_ne hy hwide]
    exact trunc_lt _ _
  obtain ⟨hget, hflg, hframe⟩ := end_of_write h hlt (flagsLogic_keeps wd (trunc wd (ext ws (x.get s))) s.flg)
    (2 + src.extLen + dst.extLen) (x.calls + y.calls)
  refine ⟨x, y, _, hx, hy, hi.completes hwf (hexec.trans (extendG2_resolved hx hy)), ?_, ?_, hframe⟩
  · rw [hget, hb]
  · rw [hflg, ← hb]
    exact resultFlags_flagsLogic (trunc_lt _ _) _

theorem sext_trunc_toNat {ws : Width} (wd : Width) {v : Val} (hv : v.toNat < 2 ^ ws.bits) :
    (trunc wd (sext ws v)).toNat = (signed ws v.toNat % 2 ^ wd.bits).toNat := by
  rw [← sext_toInt hv, ← trunc_toInt, Int.toNat_natCast]

/-- A value of the source width is its own zero extension. -/
theorem zext_trunc_toNat {ws wd : Width} (hle : ws.bits ≤ wd.bits) {v : Val} (hv : v.toNat < 2 ^ ws.bits) :
    (trunc wd (trunc ws v)).toNat = v.toNat := by
  rw [trunc_of_lt hv, trunc_of_lt (Nat.lt_of_lt_of_le hv (Nat.pow_le_pow_right (by decide) hle))]

/-- Settles O40. -/
theorem extendResult : Obligations.ExtendResult := fun _ _ _ h =>
  ⟨extends_of_extendG2 (sext_trunc_toNat _) (by decide) rfl ⟨rfl, rfl, rfl, rfl⟩ h,
    extends_of_extendG2 (sext_trunc_toNat _) (by decide) rfl ⟨rfl, rfl, rfl, rfl⟩ h,
    extends_of_extendG2 (zext_trunc_toNat (by decide)) (by decide) rfl ⟨rfl, rfl, rfl, rfl⟩ h,
    extends_of_extendG2 (zext_trunc_toNat (by decide)) (by decide) rfl ⟨rfl, rfl, rfl, rfl⟩ h⟩

theorem exec_lea {src dst : Opnd} {s : State} {ea : Addr} {y : Acc} (hea : resolvePtr src lmPtr s = some ea)
    (hy : resolve dst .long (lmValue .long) .allow s = some y) :
    exec (.lea src dst) s = .next (advance (2 + src.extLen + dst.extLen) y.calls (y.set (addrWord ea) s)) := by
  refine (withPtr_resolved hea).trans ?_
  simp only [withOpnd, hy]

/-- Settles O41. -/
theorem leaResult : Obligations.LeaResult := by
  intro src dst s h hwf
  have hi : Plain (.lea src dst) [(.pointer, src), (.value .long true, dst)] (inMem dst) := ⟨rfl, rfl, rfl, rfl⟩
  obtain ⟨hsrc, hdst⟩ := hi.admits_two hwf
  obtain ⟨ea, hea⟩ := resolvePtr_of_isMem hsrc s
  obtain ⟨y, hy, -⟩ := resolve_of_admits_allow hdst s
  have hlt : (addrWord ea).toNat < 2 ^ y.width.bits := by
    rw [resolve_width_of_ne hy (by decide)]
    exact (addrWord ea).isLt
  obtain ⟨hget, -, hframe⟩ := end_of_write h hlt (keepsFlags_refl [] s) (2 + src.extLen + dst.extLen) y.calls
  exact ⟨ea, y, _, hea, hy, hi.completes hwf (exec_lea hea hy), by rw [← addrWord_toNat]; exact congrArg _ hget, hframe⟩

/-! ## The stack -/

theorem pushOf_runs (w : Width) (src : Opnd) :
    (∃ b0, ∀ s, exec (pushOf w src) s = readOne b0 w src 1 (push w) s) ∧
      Plain (pushOf w src) [(.value w false, src)] (inMem src + 1) := by
  cases w <;> exact ⟨⟨_, fun _ => rfl⟩, rfl, rfl, rfl, rfl⟩

theorem popOf_runs (w : Width) (dst : Opnd) :
    (∃ b0, ∀ s, exec (popOf w dst) s = writeOne b0 w dst 1 (popValue w s) (popState w s) s) ∧
      Plain (popOf w dst) [(.value w false, dst)] (inMem dst + 1) := by
  cases w <;> exact ⟨⟨_, fun _ => rfl⟩, rfl, rfl, rfl, rfl⟩

/-- Settles O42. -/
theorem pushResult : Obligations.PushResult := by
  intro w src s h
  refine ⟨fun hwf => ?_, fun hwf => ?_⟩
  · obtain ⟨⟨b0, hexec⟩, hi⟩ := pushOf_runs w src
    obtain ⟨x, hx, -⟩ := resolve_of_admits_forbid (hi.admits_one hwf) s
    have hlt : (x.get s).toNat < 2 ^ w.bits := resolve_width_forbid hx ▸ x.get_lt s
    exact ⟨x, _, hx, hi.completes hwf ((hexec s).trans (readOne_resolved hx)), rfl,
      (popValue_push h w (x.get s)).trans (trunc_of_lt hlt), outside_advance (outside_push h w (x.get s)) _ _⟩
  · have hi : Plain (.pusha src) [(.pointer, src)] 1 := ⟨rfl, rfl, rfl, rfl⟩
    obtain ⟨ea, hea⟩ := resolvePtr_of_isMem (hi.admits_one hwf) s
    exact ⟨ea, _, hea, hi.completes hwf (withPtr_resolved hea), rfl,
      (congrArg BitVec.toNat (popValue_push h .long (addrWord ea))).trans (addrWord_toNat ea),
      outside_advance (outside_push h .long (addrWord ea)) _ _⟩

theorem outside_popState (w : Width) (s : State) : Outside [] [] [] s (popState w s) :=
  ⟨fun p _ => by cases p <;> rfl, keepsMem_refl _ s, keepsFlags_refl _ s, rfl, rfl⟩

/-- Settles O43. -/
theorem popResult : Obligations.PopResult := by
  intro w dst s h hwf
  obtain ⟨⟨b0, hexec⟩, hi⟩ := popOf_runs w dst
  obtain ⟨y, hy, -⟩ := resolve_of_admits_forbid (hi.admits_one hwf) s
  have hlt : (popValue w s).toNat < 2 ^ y.width.bits := by
    rw [resolve_width_forbid hy]
    exact memRead_lt _ _ _
  exact ⟨y, _, hy, hi.completes hwf ((hexec s).trans (writeOne_resolved hy)), Acc.set_sp ..,
    (get_advance_set (u := popState w s) h y _ _ _).trans (trunc_of_lt hlt),
    outside_advance (outside_set h (outside_popState w s) rfl y _) _ _⟩

/-! ## The control registers -/

/-- At the widths 16 and 32 the resolver does the same whether promotion is allowed or forbidden. -/
theorem resolve_allow_of_wide {w : Width} (hw : w ≠ .byte) (o : Opnd) (s : State) :
    resolve o w (lmValue w) .allow s = resolve o w (lmValue w) .forbid s := by
  have hp : promoted o w .allow = promoted o w .forbid := by
    cases w with
    | byte => exact absurd rfl hw
    | word | long => cases o <;> rfl
  simp only [resolve, hp]

/-- LDC of a register: the value is read at its width and `f` takes it. -/
theorem reads_wide {i : Instr} {b0 : Byte} {w : Width} {promote : Bool} {src : Opnd} {f : Val → State → State} {s : State}
    (hw : w ≠ .byte) (hexec : exec i s = readOne b0 w src 0 f s) (hi : Plain i [(.value w promote, src)] (inMem src))
    (hwf : i.wellFormed = true) :
    ∃ x, resolve src w (lmValue w) .allow s = some x ∧ x.width = w ∧
      Completes i (inMem src) s (advance (2 + src.extLen) (x.calls + 0) (f (x.get s) s)) := by
  have hadm := (admits_of_wide (fun e => absurd e hw) src).symm.trans (hi.admits_one hwf)
  obtain ⟨x, hx, -⟩ := resolve_of_admits_forbid hadm s
  exact ⟨x, (resolve_allow_of_wide hw src s).trans hx, resolve_width_forbid hx,
    hi.completes hwf (hexec.trans (readOne_resolved hx))⟩

/-- STC and SCcnd: a value of the width is written and nothing else changes. -/
theorem writes_wide {i : Instr} {b0 : Byte} {w : Width} {promote : Bool} {dst : Opnd} {v : Val} {s : State}
    (hw : w ≠ .byte) (hv : v.toNat < 2 ^ w.bits) (hexec : exec i s = writeOne b0 w dst 0 v s s)
    (hi : Plain i [(.value w promote, dst)] (inMem dst)) (h : s.mem.wf = true) (hwf : i.wellFormed = true) :
    ∃ y t, resolve dst w (lmValue w) .allow s = some y ∧ y.width = w ∧ Completes i (inMem dst) s t ∧ y.get t = v ∧
      Frame y.parts y.span [] s t := by
  have hadm := (admits_of_wide (fun e => absurd e hw) dst).symm.trans (hi.admits_one hwf)
  obtain ⟨y, hy, -⟩ := resolve_of_admits_forbid hadm s
  have hwidth := resolve_width_forbid hy
  obtain ⟨hget, -, hframe⟩ := end_of_write h (hwidth ▸ hv) (keepsFlags_refl [] s) (2 + dst.extLen) (y.calls + 0)
  exact ⟨y, _, (resolve_allow_of_wide hw dst s).trans hy, hwidth, hi.completes hwf (hexec.trans (writeOne_resolved hy)),
    hget, hframe⟩

theorem flagsLoad_carrier_getLsbD (v : Val) (k : Nat) :
    (flagsLoad (v.setWidth 16)).getLsbD k = (v.getLsbD k && (decide (k < 5) || (decide (8 ≤ k) && decide (k < 11)))) := by
  rw [flagsLoad_getLsbD, BitVec.getLsbD_setWidth, ← Bool.decide_and, ← Bool.decide_or]
  by_cases hk : k < 16
  · rw [decide_eq_true hk, Bool.true_and]
  · rw [decide_eq_false (p := k < 5 ∨ (8 ≤ k ∧ k < 11)) (by omega), Bool.and_false, Bool.and_false]

/-- Settles O44. -/
theorem ldcResult : Obligations.LdcResult := by
  intro src s
  refine ⟨fun hwf => ?_, fun hwf => ?_, fun hwf => ?_⟩
  · obtain ⟨x, hx, -, hrun⟩ := reads_wide (w := .word) (f := fun v t => { t with flg := flagsLoad (v.setWidth 16) })
      (by decide) rfl ⟨rfl, rfl, rfl, rfl⟩ hwf
    exact ⟨x, _, hx, hrun, flagsLoad_carrier_getLsbD (x.get s), fun p _ => by cases p <;> rfl, rfl, rfl, rfl, rfl⟩
  · obtain ⟨x, hx, -, hrun⟩ := reads_wide (w := .long) (f := fun v t => { t with sp := v })
      (by decide) rfl ⟨rfl, rfl, rfl, rfl⟩ hwf
    exact ⟨x, _, hx, hrun, rfl, rfl, fun p _ => by cases p <;> rfl, keepsMem_refl _ s, keepsFlags_refl _ s, rfl, rfl⟩
  · obtain ⟨x, hx, -, hrun⟩ := reads_wide (w := .long) (f := fun v t => { t with intb := v })
      (by decide) rfl ⟨rfl, rfl, rfl, rfl⟩ hwf
    exact ⟨x, _, hx, hrun, rfl, fun p _ => by cases p <;> rfl, rfl, rfl, rfl, rfl⟩

/-- Settles O45. -/
theorem stcResult : Obligations.StcResult := by
  intro dst s h
  have hflg : (s.flg.setWidth 32).toNat = s.flg.toNat := BitVec.toNat_setWidth_of_le (by decide)
  refine ⟨fun hwf => ?_, fun hwf => ?_, fun hwf => ?_⟩
  · obtain ⟨y, t, hy, -, hrun, hget, hframe⟩ := writes_wide (w := .word) (v := s.flg.setWidth 32) (by decide)
      (hflg ▸ s.flg.isLt) rfl ⟨rfl, rfl, rfl, rfl⟩ h hwf
    exact ⟨y, t, hy, hrun, (congrArg _ hget).trans hflg, hframe⟩
  · obtain ⟨y, t, hy, -, hrest⟩ := writes_wide (w := .long) (by decide) s.sp.isLt rfl ⟨rfl, rfl, rfl, rfl⟩ h hwf
    exact ⟨y, t, hy, hrest⟩
  · obtain ⟨y, t, hy, -, hrest⟩ := writes_wide (w := .long) (by decide) s.intb.isLt rfl ⟨rfl, rfl, rfl, rfl⟩ h hwf
    exact ⟨y, t, hy, hrest⟩

/-- Settles O47. -/
theorem scCndResult : Obligations.ScCndResult := by
  intro c dst s h
  have hbit : (if condHolds c s.flg then 1#32 else 0#32).toNat = (condFormula c s.flg).toNat := by
    rw [toNat_carry, condHolds_eq_condFormula]
  obtain ⟨y, t, hy, hwidth, hrun, hget, hframe⟩ := writes_wide (i := .scCnd c dst) (w := .word) (by decide)
    (hbit ▸ Nat.lt_of_le_of_lt (Bool.toNat_le _) (by decide)) rfl ⟨rfl, rfl, rfl, rfl⟩ h rfl
  exact ⟨y, t, hy, hwidth, hrun, (congrArg _ hget).trans hbit, hframe⟩

/-! ## Bits -/

/-- A bit instruction that writes, from what its operation does to the bits of a byte. -/
theorem writesBit_of_bitWrite {i : Instr} {b0 : Byte} {bit : BitVec 3} {f : Val → Nat → Val} {dst : Opnd} {new : Bool → Bool}
    {s : State} (hf : ∀ (v : Val) (k j : Nat), j < 8 → k < 8 →
      (f v k).getLsbD j = if j = k then new (v.getLsbD k) else v.getLsbD j)
    (hexec : exec i s = bitWrite b0 bit f dst s) (hi : Plain i [(.bitBase, dst)] (2 * inMem dst)) (h : s.mem.wf = true)
    (hwf : i.wellFormed = true) : WritesBit i bit dst new s := by
  have hbase : dst.isAReg = false := Bool.not_eq_true' _ ▸ hi.admits_one hwf
  obtain ⟨⟨y, k⟩, hp, -⟩ := resolveBit_of_not_isAReg hbase bit s
  obtain ⟨hwidth, hk⟩ := resolveBit_byte hp
  have hframe := frame_advance (frame_set h (frame_refl s) rfl y (f (y.get s) k)) (2 + dst.extLen) (2 * y.calls)
  refine ⟨y, k, _, hp, hi.completes hwf (hexec.trans (bitWrite_resolved hp)), fun j hj => ?_, hframe⟩
  rw [get_advance_set h]
  refine (trunc_getLsbD y.width _ j).trans ?_
  rw [show y.width = .byte from hwidth, decide_eq_true (show j < Width.byte.bits from hj), Bool.true_and, hf _ _ _ hj hk]
  rfl

theorem bit_getLsbD {j k : Nat} (hj : j < 8) : (1#32 <<< k).getLsbD j = decide (j = k) := by
  rw [BitVec.getLsbD_shiftLeft, BitVec.getLsbD_one, Bool.eq_iff_iff]
  simp
  omega

theorem putBit_getLsbD (t : Bool) (v : Val) (k j : Nat) (hj : j < 8) :
    (putBit t v k).getLsbD j = if j = k then t else v.getLsbD j := by
  cases t with
  | true =>
    rw [putBit, if_pos rfl, BitVec.getLsbD_or, bit_getLsbD hj]
    by_cases e : j = k <;> simp [e]
  | false =>
    rw [putBit, if_neg Bool.false_ne_true, BitVec.getLsbD_and, BitVec.getLsbD_not, bit_getLsbD hj,
      decide_eq_true (show j < 32 by omega)]
    by_cases e : j = k <;> simp [e]

theorem flipBit_getLsbD (v : Val) (k j : Nat) (hj : j < 8) :
    (v ^^^ (1#32 <<< k)).getLsbD j = if j = k then !(v.getLsbD k) else v.getLsbD j := by
  rw [BitVec.getLsbD_xor, bit_getLsbD hj]
  by_cases e : j = k <;> simp [e]

theorem exec_btst {bit : BitVec 3} {src : Opnd} {s : State} {p : Acc × Nat} (hp : resolveBit src bit s = some p) :
    exec (.btst bit src) s = .next (advance (2 + src.extLen) p.1.calls
      { s with flg := flagsLogic .byte (if (p.1.get s).getLsbD p.2 then 1#32 else 0#32) s.flg }) := by
  show execBtst bit src s = _
  simp only [execBtst, withBit_resolved hp]

/-- Settles O46. -/
theorem bitInstructions : Obligations.BitInstructions := by
  intro bit c dst s h hwf
  have hi : Plain (.btst bit dst) [(.bitBase, dst)] (inMem dst) := ⟨rfl, rfl, rfl, rfl⟩
  have hbase : dst.isAReg = false := Bool.not_eq_true' _ ▸ hi.admits_one hwf
  obtain ⟨⟨y, k⟩, hp, -⟩ := resolveBit_of_not_isAReg hbase bit s
  have hone : (if (y.get s).getLsbD k then 1#32 else 0#32).toNat = ((y.get s).toNat.testBit k).toNat := toNat_carry _
  obtain ⟨hz, hs⟩ := resultFlags_flagsLogic (w := .byte)
    (hone ▸ Nat.lt_of_le_of_lt (Bool.toNat_le _) (by decide)) s.flg
  refine ⟨writesBit_of_bitWrite (f := putBit true) (fun v k j hj _ => putBit_getLsbD true v k j hj) rfl
      ⟨rfl, rfl, rfl, rfl⟩ h hwf,
    writesBit_of_bitWrite (f := putBit false) (fun v k j hj _ => putBit_getLsbD false v k j hj) rfl
      ⟨rfl, rfl, rfl, rfl⟩ h hwf,
    writesBit_of_bitWrite (f := fun v k => v ^^^ (1#32 <<< k)) (fun v k j hj _ => flipBit_getLsbD v k j hj) rfl
      ⟨rfl, rfl, rfl, rfl⟩ h hwf,
    writesBit_of_bitWrite (f := putBit (condHolds c s.flg))
      (fun v k j hj _ => by rw [← condHolds_eq_condFormula]; exact putBit_getLsbD _ v k j hj) rfl ⟨rfl, rfl, rfl, rfl⟩ h hwf,
    y, k, _, hp, hi.completes hwf (exec_btst hp), hz.trans ?_, hs.trans ?_,
    frame_advance (frame_setFlg (flagsLogic_keeps _ _ s.flg)) _ _⟩
  · rw [hone]
    cases (y.get s).toNat.testBit k <;> rfl
  · rw [hone]
    cases (y.get s).toNat.testBit k <;> rfl

end Sys2Proof.Machine
end

section
/-! DADD and DSUB (44_arithmetic.md R271 to R274): digit-wise addition and subtraction are the decimal ones. -/

namespace Sys2Proof.Machine

open Sys2Proof Sys2Proof.Claims Sys2Proof.Laws

/-! ## Packed decimal numbers, digit by digit -/

theorem digitsValid_zero (v : Nat) : DigitsValid 0 v := fun _ h => absurd h (Nat.not_lt_zero _)

theorem digitsValid_succ (n v : Nat) : DigitsValid (n + 1) v ↔ v % 16 ≤ 9 ∧ DigitsValid n (v / 16) := by
  have hshift : ∀ i, v / 16 / 16 ^ i = v / 16 ^ (i + 1) := fun i => by
    rw [Nat.div_div_eq_div_mul, Nat.pow_succ, Nat.mul_comm]
  constructor
  · intro h
    refine ⟨by simpa using h 0 (Nat.succ_pos n), fun i hi => ?_⟩
    rw [hshift]
    exact h (i + 1) (Nat.succ_lt_succ hi)
  · rintro ⟨h0, h⟩ i hi
    cases i with
    | zero => simpa using h0
    | succ i =>
      rw [← hshift]
      exact h i (Nat.lt_of_succ_lt_succ hi)

/-- The model's digit test is the one of the statements. -/
theorem isBcd_iff (n v : Nat) : isBcd n v = true ↔ DigitsValid n v := by
  induction n generalizing v with
  | zero => exact ⟨fun _ => digitsValid_zero v, fun _ => rfl⟩
  | succ n ih => rw [isBcd, Bool.and_eq_true, decide_eq_true_iff, ih, digitsValid_succ]

theorem decimalValue_succ (n v : Nat) : decimalValue (n + 1) v = v % 16 + 10 * decimalValue n (v / 16) := rfl

theorem decimalValue_lt {n v : Nat} (h : DigitsValid n v) : decimalValue n v < 10 ^ n := by
  induction n generalizing v with
  | zero => exact Nat.one_pos
  | succ n ih =>
    obtain ⟨hd, hrest⟩ := (digitsValid_succ n v).1 h
    have := ih hrest
    rw [decimalValue, Nat.pow_succ]
    omega

/-- A packed result with a carry or borrow: valid digits, within its width, and the flag is 0 or 1. -/
structure PackedResult (n : Nat) (r : Nat × Nat) : Prop where
  digits : DigitsValid n r.1
  lt : r.1 < 16 ^ n
  flag : r.2 ≤ 1

/-- One more digit below a packed result. -/
theorem PackedResult.cons {n d : Nat} {r : Nat × Nat} (h : PackedResult n r) (hd : d ≤ 9) :
    PackedResult (n + 1) (d + 16 * r.1, r.2) ∧ decimalValue (n + 1) (d + 16 * r.1) = d + 10 * decimalValue n r.1 := by
  have hmod : (d + 16 * r.1) % 16 = d := by omega
  have hdiv : (d + 16 * r.1) / 16 = r.1 := by omega
  refine ⟨⟨(digitsValid_succ n (d + 16 * r.1)).2 ⟨?_, ?_⟩, ?_, h.flag⟩, by rw [decimalValue, hmod, hdiv]⟩
  · rw [hmod]
    exact hd
  · rw [hdiv]
    exact h.digits
  · have := h.lt
    show d + 16 * r.1 < 16 ^ (n + 1)
    rw [Nat.pow_succ]
    omega

/-- `BcdAdd` on valid digits adds the decimal values and carries the rest. -/
theorem bcdAdd_value {n a b k : Nat} (ha : DigitsValid n a) (hb : DigitsValid n b) (hk : k ≤ 1) :
    PackedResult n (bcdAdd n a b k) ∧
      decimalValue n (bcdAdd n a b k).1 + 10 ^ n * (bcdAdd n a b k).2 = decimalValue n a + decimalValue n b + k := by
  induction n generalizing a b k with
  | zero => exact ⟨⟨digitsValid_zero _, Nat.one_pos, hk⟩, by simp [bcdAdd, decimalValue]⟩
  | succ n ih =>
    obtain ⟨hda, ha⟩ := (digitsValid_succ n a).1 ha
    obtain ⟨hdb, hb⟩ := (digitsValid_succ n b).1 hb
    have hstep : ∃ d c, d ≤ 9 ∧ c ≤ 1 ∧ d + 10 * c = a % 16 + b % 16 + k ∧
        bcdAdd (n + 1) a b k = (d + 16 * (bcdAdd n (a / 16) (b / 16) c).1, (bcdAdd n (a / 16) (b / 16) c).2) := by
      rw [bcdAdd]
      by_cases hcarry : a % 16 + b % 16 + k > 9
      · exact ⟨a % 16 + b % 16 + k - 10, 1, by omega, by omega, by omega, by simp only [if_pos hcarry]⟩
      · exact ⟨a % 16 + b % 16 + k, 0, by omega, by omega, by omega, by simp only [if_neg hcarry]⟩
    obtain ⟨d, c, hd, hc, hdigit, heq⟩ := hstep
    obtain ⟨hr, hval⟩ := ih ha hb hc
    obtain ⟨hcons, hdec⟩ := hr.cons hd
    rw [heq]
    refine ⟨hcons, ?_⟩
    dsimp only
    rw [hdec, decimalValue_succ n a, decimalValue_succ n b, Nat.pow_succ]
    linarith

/-- `BcdSub` on valid digits subtracts the decimal values and borrows what is missing. -/
theorem bcdSub_value {n a b k : Nat} (ha : DigitsValid n a) (hb : DigitsValid n b) (hk : k ≤ 1) :
    PackedResult n (bcdSub n a b k) ∧
      decimalValue n (bcdSub n a b k).1 + decimalValue n b + k = decimalValue n a + 10 ^ n * (bcdSub n a b k).2 := by
  induction n generalizing a b k with
  | zero => exact ⟨⟨digitsValid_zero _, Nat.one_pos, hk⟩, by simp [bcdSub, decimalValue]⟩
  | succ n ih =>
    obtain ⟨hda, ha⟩ := (digitsValid_succ n a).1 ha
    obtain ⟨hdb, hb⟩ := (digitsValid_succ n b).1 hb
    have hstep : ∃ d c, d ≤ 9 ∧ c ≤ 1 ∧ d + b % 16 + k = a % 16 + 10 * c ∧
        bcdSub (n + 1) a b k = (d + 16 * (bcdSub n (a / 16) (b / 16) c).1, (bcdSub n (a / 16) (b / 16) c).2) := by
      rw [bcdSub]
      by_cases hborrow : a % 16 < b % 16 + k
      · exact ⟨a % 16 + 10 - (b % 16 + k), 1, by omega, by omega, by omega, by simp only [if_pos hborrow]⟩
      · exact ⟨a % 16 - (b % 16 + k), 0, by omega, by omega, by omega, by simp only [if_neg hborrow]⟩
    obtain ⟨d, c, hd, hc, hdigit, heq⟩ := hstep
    obtain ⟨hr, hval⟩ := ih ha hb hc
    obtain ⟨hcons, hdec⟩ := hr.cons hd
    rw [heq]
    refine ⟨hcons, ?_⟩
    dsimp only
    rw [hdec, decimalValue_succ n a, decimalValue_succ n b, Nat.pow_succ]
    linarith

/-! ## The operation -/

theorem sixteen_pow_digits (w : Width) : 16 ^ (w.bits / 4) = 2 ^ w.bits := by cases w <;> rfl

/-- A packed result fits in the carrier at its width. -/
theorem packed_toNat {w : Width} {r : Nat × Nat} (h : PackedResult (w.bits / 4) r) : (BitVec.ofNat 32 r.1).toNat = r.1 := by
  have hlt := h.lt
  rw [sixteen_pow_digits] at hlt
  rw [BitVec.toNat_ofNat, Nat.mod_eq_of_lt (Nat.lt_of_lt_of_le hlt (Nat.le_of_dvd (by decide) (two_pow_bits_dvd w)))]

theorem bcdValid_iff (w : Width) (a b : Val) :
    bcdValid w a b = true ↔ DigitsValid (w.bits / 4) a.toNat ∧ DigitsValid (w.bits / 4) b.toNat := by
  rw [bcdValid, Bool.and_eq_true, isBcd_iff, isBcd_iff, bcdDigits]

section

variable {w : Width} {a b : Val}

theorem decimalOp_dadd (ha : DigitsValid (w.bits / 4) a.toNat) (hb : DigitsValid (w.bits / 4) b.toNat) :
    decimalOp .dadd w a b = (BitVec.ofNat 32 (bcdAdd (w.bits / 4) a.toNat b.toNat 0).1,
      (bcdAdd (w.bits / 4) a.toNat b.toNat 0).2 == 1) :=
  if_pos ((bcdValid_iff w a b).2 ⟨ha, hb⟩)

theorem decimalOp_dsub (ha : DigitsValid (w.bits / 4) a.toNat) (hb : DigitsValid (w.bits / 4) b.toNat) :
    decimalOp .dsub w a b = (BitVec.ofNat 32 (bcdSub (w.bits / 4) a.toNat b.toNat 0).1,
      (bcdSub (w.bits / 4) a.toNat b.toNat 0).2 == 0) :=
  if_pos ((bcdValid_iff w a b).2 ⟨ha, hb⟩)

theorem decimalOp_free (op : DecimalOp) (h : bcdValid w a b = false) :
    decimalOp op w a b = (trunc w (Config.bcdNonStd op w a b).1, (Config.bcdNonStd op w a b).2) :=
  if_neg (by rw [h]; exact Bool.false_ne_true)

/-- What a decimal operation on valid digits is to give: valid digits that stand for the total, and C. -/
structure DecimalSpec (w : Width) (a b : Val) (q : Val × Bool) (total : Nat → Nat → Nat → Nat)
    (c : Nat → Nat → Nat → Bool) : Prop where
  digits : DigitsValid (w.bits / 4) q.1.toNat
  lt : q.1.toNat < 2 ^ w.bits
  value : decimalValue (w.bits / 4) q.1.toNat =
    total (10 ^ (w.bits / 4)) (decimalValue (w.bits / 4) a.toNat) (decimalValue (w.bits / 4) b.toNat) % 10 ^ (w.bits / 4)
  carry : q.2 = c (10 ^ (w.bits / 4)) (decimalValue (w.bits / 4) a.toNat) (decimalValue (w.bits / 4) b.toNat)

theorem dadd_spec (ha : DigitsValid (w.bits / 4) a.toNat) (hb : DigitsValid (w.bits / 4) b.toNat) :
    DecimalSpec w a b (decimalOp .dadd w a b) (fun _ x y => x + y) (fun n x y => decide (n ≤ x + y)) := by
  obtain ⟨hr, hval⟩ := bcdAdd_value ha hb (Nat.zero_le 1)
  have hlt := decimalValue_lt hr.digits
  have hflag := hr.flag
  rw [decimalOp_dadd ha hb]
  refine ⟨?_, ?_, ?_, ?_⟩
  · rw [packed_toNat hr]
    exact hr.digits
  · rw [packed_toNat hr, ← sixteen_pow_digits]
    exact hr.lt
  · rw [packed_toNat hr]
    simp only [Nat.add_zero] at hval
    rw [← hval, Nat.add_mul_mod_self_left, Nat.mod_eq_of_lt hlt]
  · rw [Bool.eq_iff_iff, beq_iff_eq, decide_eq_true_iff]
    generalize (bcdAdd (w.bits / 4) a.toNat b.toNat 0).2 = carry at *
    obtain rfl | rfl : carry = 0 ∨ carry = 1 := by omega
    · omega
    · omega

theorem dsub_spec (ha : DigitsValid (w.bits / 4) a.toNat) (hb : DigitsValid (w.bits / 4) b.toNat) :
    DecimalSpec w a b (decimalOp .dsub w a b) (fun n x y => x + n - y) (fun _ x y => decide (y ≤ x)) := by
  obtain ⟨hr, hval⟩ := bcdSub_value ha hb (Nat.zero_le 1)
  have hlt := decimalValue_lt hr.digits
  have hb' := decimalValue_lt hb
  have ha' := decimalValue_lt ha
  have hflag := hr.flag
  rw [decimalOp_dsub ha hb]
  refine ⟨?_, ?_, ?_, ?_⟩
  · rw [packed_toNat hr]
    exact hr.digits
  · rw [packed_toNat hr, ← sixteen_pow_digits]
    exact hr.lt
  · rw [packed_toNat hr]
    generalize (bcdSub (w.bits / 4) a.toNat b.toNat 0).2 = borrow at *
    obtain rfl | rfl : borrow = 0 ∨ borrow = 1 := by omega
    · rw [Nat.mod_eq_sub_mod (by omega), Nat.mod_eq_of_lt (by omega)]
      omega
    · rw [Nat.mod_eq_of_lt (by omega)]
      omega
  · rw [Bool.eq_iff_iff, beq_iff_eq, decide_eq_true_iff]
    generalize (bcdSub (w.bits / 4) a.toNat b.toNat 0).2 = borrow at *
    obtain rfl | rfl : borrow = 0 ∨ borrow = 1 := by omega
    · omega
    · omega

end

/-! ## The instructions -/

theorem flagsBcd_keeps (w : Width) (r : Val) (c : Bool) (flg : BitVec 16) (k : Nat) (hk : k ∉ czs) :
    (flagsBcd w r c flg).getLsbD k = flg.getLsbD k := by
  simp only [czs, List.mem_cons, List.not_mem_nil, or_false, not_or] at hk
  obtain ⟨h0, h1, h2⟩ := hk
  rw [flagsBcd_getLsbD, if_neg h0, if_neg h2, if_neg h1]

/-- What a decimal instruction leaves, given what its operation `q` computes and the new DIAG.bcd. -/
structure DecimalEnd (i : Instr) (w : Width) (src dst : Opnd) (y : Acc) (q : Val × Bool) (bcd : Bool) (s t : State) :
    Prop where
  runs : Completes i (inMem src + 2 * inMem dst) s t
  value : y.get t = q.1
  carry : getFlag .c t.flg = q.2
  result : ResultFlags w q.1.toNat t.flg
  regs : KeepsRegs y.parts s t
  mem : KeepsMem y.span s t
  flags : KeepsFlags czs s t
  sp : t.sp = s.sp
  intb : t.intb = s.intb
  bcd : t.diagBcd = bcd

theorem decimalEnd_of_decimalG2 {i : Instr} {b0 : Byte} {w : Width} {op : DecimalOp} {src dst : Opnd} {s : State} {x y : Acc}
    (hexec : exec i s = decimalG2 b0 w op src dst s)
    (hi : Plain i [(.value w false, src), (.value w false, dst)] (inMem src + 2 * inMem dst)) (h : s.mem.wf = true)
    (hx : resolve src w (lmValue w) .forbid s = some x) (hy : resolve dst w (lmValue w) .forbid s = some y)
    (hlt : (decimalOp op w (y.get s) (x.get s)).1.toNat < 2 ^ w.bits) :
    ∃ t, DecimalEnd i w src dst y (decimalOp op w (y.get s) (x.get s))
      (s.diagBcd || !bcdValid w (y.get s) (x.get s)) s t := by
  have hwf : i.wellFormed = true := by
    rw [hi.wellFormed, List.all_cons, List.all_cons, List.all_nil, ← resolve_isSome_forbid src w s,
      ← resolve_isSome_forbid dst w s, hx, hy]
    rfl
  have hrun := hexec.trans (decimalG2_resolved hx hy)
  generalize decimalOp op w (y.get s) (x.get s) = q at *
  generalize (s.diagBcd || !bcdValid w (y.get s) (x.get s)) = bcd at *
  have hflg : ∀ k, (y.set q.1 { s with flg := flagsBcd w q.1 q.2 s.flg, diagBcd := bcd }).flg.getLsbD k =
      (flagsBcd w q.1 q.2 s.flg).getLsbD k := fun k => by rw [Acc.set_flg]
  refine ⟨_, hi.completes hwf hrun, ?_, ?_, resultFlags_of_bits hlt ?_ ?_, fun p hp => ?_, fun a ha => ?_, fun k hk => ?_,
    Acc.set_sp .., Acc.set_intb .., Acc.set_diagBcd ..⟩
  · rw [get_advance_set (u := { s with flg := flagsBcd w q.1 q.2 s.flg, diagBcd := bcd }) h, resolve_width_forbid hy,
      trunc_of_lt hlt]
  · exact (hflg 0).trans (flagsBcd_getLsbD w q.1 q.2 s.flg 0)
  · exact (hflg 1).trans (flagsBcd_getLsbD w q.1 q.2 s.flg 1)
  · exact (hflg 2).trans (flagsBcd_getLsbD w q.1 q.2 s.flg 2)
  · refine Eq.trans ?_ ((Acc.set_keepsRegs y q.1 { s with flg := flagsBcd w q.1 q.2 s.flg, diagBcd := bcd } p hp).trans ?_)
    · cases p <;> rfl
    · cases p <;> rfl
  · exact Acc.set_keepsMem (s := { s with flg := flagsBcd w q.1 q.2 s.flg, diagBcd := bcd }) h y q.1 a ha
  · exact (hflg k).trans (flagsBcd_keeps w q.1 q.2 s.flg k hk)

theorem decimalResult_of_spec {i : Instr} {b0 : Byte} {w : Width} {op : DecimalOp} {src dst : Opnd} {s : State}
    {total : Nat → Nat → Nat → Nat} {c : Nat → Nat → Nat → Bool}
    (hspec : ∀ {a b : Val}, DigitsValid (w.bits / 4) a.toNat → DigitsValid (w.bits / 4) b.toNat →
      DecimalSpec w a b (decimalOp op w a b) total c)
    (hexec : exec i s = decimalG2 b0 w op src dst s)
    (hi : Plain i [(.value w false, src), (.value w false, dst)] (inMem src + 2 * inMem dst)) (h : s.mem.wf = true) :
    DecimalResult i w src dst total c s := by
  intro x y hx hy hdst hsrc
  have hq := hspec hdst hsrc
  obtain ⟨t, ht⟩ := decimalEnd_of_decimalG2 hexec hi h hx hy hq.lt
  have hbcd : t.diagBcd = s.diagBcd := by
    rw [ht.bcd, (bcdValid_iff _ _ _).2 ⟨hdst, hsrc⟩, Bool.not_true, Bool.or_false]
  refine ⟨t, ht.runs, ?_, ?_, ht.carry.trans hq.carry, ?_, ⟨ht.regs, ht.mem, ht.flags, ht.intb, hbcd⟩, ht.sp⟩
  · rw [ht.value]
    exact hq.digits
  · rw [ht.value]
    exact hq.value
  · rw [ht.value]
    exact ht.result

/-- Settles O32. -/
theorem decimalValidDigits : Obligations.DecimalValidDigits := fun _ _ _ h =>
  ⟨decimalResult_of_spec dadd_spec rfl ⟨rfl, rfl, rfl, rfl⟩ h, decimalResult_of_spec dadd_spec rfl ⟨rfl, rfl, rfl, rfl⟩ h,
    decimalResult_of_spec dsub_spec rfl ⟨rfl, rfl, rfl, rfl⟩ h, decimalResult_of_spec dsub_spec rfl ⟨rfl, rfl, rfl, rfl⟩ h⟩

theorem decimalFree_of_decimalG2 {i : Instr} {b0 : Byte} {w : Width} {op : DecimalOp} {src dst : Opnd} {s : State}
    (hexec : exec i s = decimalG2 b0 w op src dst s)
    (hi : Plain i [(.value w false, src), (.value w false, dst)] (inMem src + 2 * inMem dst)) (h : s.mem.wf = true) :
    DecimalFree i op w src dst s := by
  intro x y hx hy hdigits
  have hvalid : bcdValid w (y.get s) (x.get s) = false := by
    rw [← Bool.not_eq_true, bcdValid_iff]
    exact hdigits
  have hop := decimalOp_free op hvalid
  obtain ⟨t, ht⟩ := decimalEnd_of_decimalG2 hexec hi h hx hy (hop ▸ trunc_lt _ _)
  refine ⟨t, ht.runs, ?_, ?_, ?_, ?_, ht.regs, ht.mem, ht.flags, ht.sp, ht.intb⟩
  · rw [ht.bcd, hvalid, Bool.not_false, Bool.or_true]
  · rw [ht.value, hop, trunc_toNat]
  · rw [ht.carry, hop]
  · rw [ht.value]
    exact ht.result

/-- Settles O33. -/
theorem decimalOtherDigits : Obligations.DecimalOtherDigits := fun _ _ _ h =>
  ⟨decimalFree_of_decimalG2 rfl ⟨rfl, rfl, rfl, rfl⟩ h, decimalFree_of_decimalG2 rfl ⟨rfl, rfl, rfl, rfl⟩ h,
    decimalFree_of_decimalG2 rfl ⟨rfl, rfl, rfl, rfl⟩ h, decimalFree_of_decimalG2 rfl ⟨rfl, rfl, rfl, rfl⟩ h⟩

end Sys2Proof.Machine
end

section
/-! The register port (60_exceptions.md R420 to R424): the image item by item, what a read puts together, what a write leaves in
each byte. -/

namespace Sys2Proof.Machine

open Sys2Proof Sys2Proof.Claims Sys2Proof.Laws

/-! ## Bytes of a number -/

theorem byteOf_lt (n k : Nat) : byteOf n k < 2 ^ 8 := Nat.mod_lt _ (by decide)

theorem extract_toNat {n : Nat} (v : BitVec n) (k : Nat) : (v.extractLsb' (8 * k) 8).toNat = byteOf v.toNat k := by
  rw [BitVec.extractLsb'_toNat, Nat.shiftRight_eq_div_pow, byteOf]

theorem wordBytes_getD_toNat (v : BitVec 32) : ∀ {k : Nat}, k < 4 → ((wordBytes v).getD k 0#8).toNat = byteOf v.toNat k
  | 0, _ => extract_toNat v 0
  | 1, _ => extract_toNat v 1
  | 2, _ => extract_toNat v 2
  | 3, _ => extract_toNat v 3

/-- The bytes of a number of a width, put together. -/
theorem sum_bytes (w : Width) (n : Nat) :
    ((List.range w.bytes).map fun k => 2 ^ (8 * k) * byteOf n k).sum = n % 2 ^ w.bits := by
  cases w <;> simp [Width.bytes, Width.bits, List.range_succ, byteOf] <;> omega

/-! ## The image, item by item -/

/-- The bytes of an item `(offset, number of bytes, value)`. -/
def itemBytes (e : Nat × Nat × Nat) : List Byte := (List.range e.2.1).map fun k => BitVec.ofNat 8 (byteOf e.2.2 k)

/-- The byte at an offset in a list of items. -/
def itemByte (items : List (Nat × Nat × Nat)) (off : Nat) : Nat :=
  (items.find? fun e => decide (e.1 ≤ off) && decide (off < e.1 + e.2.1)).elim 0 fun e => byteOf e.2.2 (off - e.1)

/-- The items follow each other without a gap, from an offset on. -/
def Contiguous : Nat → List (Nat × Nat × Nat) → Prop
  | _, [] => True
  | start, e :: rest => e.1 = start ∧ Contiguous (start + e.2.1) rest

theorem itemBytes_length (e : Nat × Nat × Nat) : (itemBytes e).length = e.2.1 := by simp [itemBytes]

theorem itemBytes_getD (e : Nat × Nat × Nat) {k : Nat} (hk : k < e.2.1) :
    ((itemBytes e).getD k 0#8).toNat = byteOf e.2.2 k := by
  rw [List.getD_eq_getElem _ _ (by rw [itemBytes_length]; exact hk)]
  simp only [itemBytes, List.getElem_map, List.getElem_range, BitVec.toNat_ofNat]
  exact Nat.mod_eq_of_lt (byteOf_lt _ _)

/-- The bytes of contiguous items, found by their offset. -/
theorem flatMap_itemBytes_getD {start : Nat} {items : List (Nat × Nat × Nat)} (h : Contiguous start items) {off : Nat}
    (hoff : start ≤ off) : ((items.flatMap itemBytes).getD (off - start) 0#8).toNat = itemByte items off := by
  induction items generalizing start with
  | nil => rfl
  | cons e rest ih =>
    obtain ⟨rfl, hrest⟩ := h
    rw [List.flatMap_cons, itemByte, List.find?_cons]
    by_cases hin : off < e.1 + e.2.1
    · rw [List.getD_append _ _ _ _ (by rw [itemBytes_length]; omega), itemBytes_getD e (by omega)]
      simp [hoff, hin]
    · rw [List.getD_append_right _ _ _ _ (by rw [itemBytes_length]; omega), itemBytes_length]
      simp only [hin, decide_false, Bool.and_false]
      rw [Nat.sub_sub]
      exact ih hrest (by omega)

theorem imageByte_eq_itemByte (s : State) (off : Nat) : imageByte s off = itemByte (imageItems s) off := by
  rw [imageByte, itemByte]
  cases (imageItems s).find? fun e => decide (e.1 ≤ off) && decide (off < e.1 + e.2.1) <;> rfl

theorem itemBytes_half (off : Nat) (v : BitVec 16) : itemBytes (off, 2, v.toNat) = halfBytes v := by
  have hb : ∀ k, BitVec.ofNat 8 (byteOf v.toNat k) = v.extractLsb' (8 * k) 8 := fun k => by
    rw [← extract_toNat, BitVec.ofNat_toNat, BitVec.setWidth_eq]
  simp [itemBytes, halfBytes, List.range_succ, hb]

theorem itemBytes_word (off : Nat) (v : BitVec 32) : itemBytes (off, 4, v.toNat) = wordBytes v := by
  have hb : ∀ k, BitVec.ofNat 8 (byteOf v.toNat k) = v.extractLsb' (8 * k) 8 := fun k => by
    rw [← extract_toNat, BitVec.ofNat_toNat, BitVec.setWidth_eq]
  simp [itemBytes, wordBytes, List.range_succ, hb]

/-- STATUS as a number, field by field (R421). -/
theorem statusWord_toNat (s : State) : (statusWord s).toNat = statusNumber s := by
  have hmode : (faultMode s.fault).toNat = (faultNumbers s.fault).2 := by
    rcases s.fault with - | ⟨- | m, pc, b⟩ <;> rfl
  have hkind : (faultKindCode s.fault).toNat = (faultNumbers s.fault).1 := by
    rcases s.fault with - | ⟨- | m, pc, b⟩ <;> rfl
  have harmed : (stickyFields s.sticky).1.toNat = (stickyNumbers s.sticky).1 := by
    rcases s.sticky with - | ⟨v, - | -⟩ <;> rfl
  have hsticky : (stickyFields s.sticky).2.1.toNat = (stickyNumbers s.sticky).2.1 := by
    rcases s.sticky with - | ⟨v, - | -⟩ <;> rfl
  simp only [statusWord, toNat_append_eq_add, BitVec.toNat_ofBool, hmode, hkind, harmed, hsticky, statusNumber,
    BitVec.toNat_ofNat, Nat.zero_mod]
  ring

/-- The items of R421 with the values the model encodes. -/
theorem imageItems_eq (s : State) :
    imageItems s =
      [(0x00, 2, s.r0.toNat), (0x02, 2, s.r2.toNat), (0x04, 2, s.r1.toNat), (0x06, 2, s.r3.toNat), (0x08, 4, s.a0.toNat),
        (0x0C, 4, s.a1.toNat), (0x10, 4, s.sp.toNat), (0x14, 4, s.intb.toNat), (0x18, 2, s.flg.toNat),
        (0x1A, 2, (0#16).toNat), (0x1C, 4, (addrWord s.pc).toNat), (0x20, 2, (statusWord s).toNat),
        (0x22, 2, ((s.fault.elim 0#8 fun r => r.opcode).setWidth 16).toNat),
        (0x24, 4, (addrWord (s.fault.elim 0#24 fun r => r.pc)).toNat),
        (0x28, 4, (addrWord (stickyFields s.sticky).2.2).toNat)] := by
  have hop : ((s.fault.elim 0#8 fun r => r.opcode).setWidth 16).toNat = s.fault.elim 0 fun r => r.opcode.toNat := by
    rw [BitVec.toNat_setWidth_of_le (by decide)]
    cases s.fault <;> rfl
  have hpc : (addrWord (s.fault.elim 0#24 fun r => r.pc)).toNat = s.fault.elim 0 fun r => r.pc.toNat := by
    rw [addrWord_toNat]
    cases s.fault <;> rfl
  have hval : (addrWord (stickyFields s.sticky).2.2).toNat = (stickyNumbers s.sticky).2.2 := by
    rw [addrWord_toNat]
    rcases s.sticky with - | ⟨v, - | -⟩ <;> rfl
  rw [imageItems, hop, hpc, hval, addrWord_toNat, statusWord_toNat]
  rfl

theorem contiguous_imageItems (s : State) : Contiguous 0 (imageItems s) :=
  ⟨rfl, rfl, rfl, rfl, rfl, rfl, rfl, rfl, rfl, rfl, rfl, rfl, rfl, rfl, rfl, trivial⟩

theorem portImage_eq (s : State) : portImage s = (imageItems s).flatMap itemBytes := by
  simp only [imageItems_eq, List.flatMap_cons, List.flatMap_nil, itemBytes_half, itemBytes_word, portImage,
    List.append_assoc, List.append_nil]

/-- The model's image is that of R421, at every offset. -/
theorem portByte_toNat (s : State) (off : Nat) : (portByte s off).toNat = imageByte s off := by
  rw [portByte, portImage_eq, imageByte_eq_itemByte]
  exact flatMap_itemBytes_getD (contiguous_imageItems s) (Nat.zero_le off)

/-! ## Reads -/

theorem misalignedControl_iff (off n : Nat) : misalignedControl off n = true ↔ Misaligned off n := by
  simp only [misalignedControl, touches, conforming, Misaligned, Bool.and_eq_true, decide_eq_true_iff, Bool.not_eq_true',
    List.contains_eq_mem, decide_eq_false_iff_not]

theorem portNote_of_misaligned {off : Nat} {w : Width} (s : State) (h : Misaligned off w.bytes) :
    portNote off w s = { s with diagMcra := true } := by
  rw [portNote, (misalignedControl_iff _ _).2 h, Bool.or_true]

theorem portWrite_diagMcra (off : Nat) (w : Width) (v : Val) (s : State) :
    (portWrite off w v s).diagMcra = (portNote off w s).diagMcra := rfl

theorem portNote_of_aligned {off : Nat} {w : Width} (s : State) (h : ¬ Misaligned off w.bytes) : portNote off w s = s := by
  rw [portNote, Bool.eq_false_iff.2 (mt (misalignedControl_iff _ _).1 h), Bool.or_false]

/-- A read puts the bytes of the image together (R422). -/
theorem portRead_toNat (s : State) (off : Nat) (w : Width) :
    (portRead off w s).1.toNat = imageValue (portNote off w s) off w.bytes := by
  have hb := fun k => portByte_toNat (portNote off w s) k
  cases w with
  | byte =>
    refine (BitVec.toNat_setWidth_of_le (by decide)).trans ((hb off).trans ?_)
    simp [imageValue, Width.bytes]
  | word =>
    refine (BitVec.toNat_setWidth_of_le (by decide)).trans ((toNat_append_eq_add _ _).trans ?_)
    rw [hb, hb]
    simp [imageValue, Width.bytes, List.range_succ]
  | long =>
    have hsum := fun (a b c d : Byte) => show (d ++ c ++ b ++ a).toNat =
        a.toNat + 2 ^ 8 * b.toNat + 2 ^ 16 * c.toNat + 2 ^ 24 * d.toNat by
      rw [toNat_append_eq_add, toNat_append_eq_add, toNat_append_eq_add]
      ring
    refine (hsum _ _ _ _).trans ?_
    rw [hb, hb, hb, hb]
    simp [imageValue, Width.bytes, List.range_succ, Nat.add_assoc]

/-! ## The register items of the image -/

/-- The bytes of the image below STATUS. -/
def registerBytes (s : State) : List Byte :=
  halfBytes s.r0 ++ halfBytes s.r2 ++ halfBytes s.r1 ++ halfBytes s.r3 ++ wordBytes s.a0 ++ wordBytes s.a1 ++
    wordBytes s.sp ++ wordBytes s.intb ++ halfBytes s.flg ++ halfBytes 0#16 ++ wordBytes (addrWord s.pc)

theorem portByte_of_register (s : State) {k : Nat} (hk : k < 0x20) : portByte s k = (registerBytes s).getD k 0#8 := by
  have hsplit : ∃ rest, portImage s = registerBytes s ++ rest :=
    ⟨_, by simp only [portImage, registerBytes, List.append_assoc]; rfl⟩
  obtain ⟨rest, hrest⟩ := hsplit
  rw [portByte, hrest, List.getD_append (registerBytes s) rest 0#8 k hk]

/-- DIAG.mcra is in STATUS: the bytes of the registers do not show it. -/
theorem imageByte_portNote (s : State) (off : Nat) (w : Width) {k : Nat} (hk : k < 0x20) :
    imageByte (portNote off w s) k = imageByte s k := by
  rw [← portByte_toNat, ← portByte_toNat, portByte_of_register _ hk, portByte_of_register _ hk]
  rfl

/-- The high byte of PC's item is 0 (R421). -/
theorem wordBytes_addrWord_lowAddr (v : BitVec 32) :
    wordBytes (addrWord (lowAddr v)) = [v.extractLsb' 0 8, v.extractLsb' 8 8, v.extractLsb' 16 8, 0#8] := by
  have hlow : ∀ k, k ≤ 16 → (addrWord (lowAddr v)).extractLsb' k 8 = v.extractLsb' k 8 := by
    intro k hk
    ext i hi
    simp [addrWord, lowAddr, show k + i < 24 by omega, show k + i < 32 by omega]
  have htop : (addrWord (lowAddr v)).extractLsb' 24 8 = 0#8 := by
    ext i hi
    simp [addrWord, lowAddr]
  rw [wordBytes, hlow 0 (by decide), hlow 8 (by decide), hlow 16 (by decide), htop]

/-! ## Writes -/

/-- A byte of `IMG'` as a number (R422). -/
theorem writtenByte_toNat (off : Nat) (w : Width) (v : Val) (s : State) (k : Nat) :
    (writtenByte off w v s k).toNat = if off ≤ k ∧ k < off + w.bytes then byteOf v.toNat (k - off) else imageByte s k := by
  have hbytes : w.bytes ≤ 4 := by cases w <;> decide
  rw [writtenByte]
  split
  · exact wordBytes_getD_toNat v (by omega)
  · exact portByte_toNat s k

/-- The bytes that a write leaves below STATUS: those of `IMG'`, but for FLG, the reserved half and the top of PC's item. -/
theorem registerBytes_portWrite (off : Nat) (w : Width) (v : Val) (s : State) :
    registerBytes (portWrite off w v s) =
      (List.range 0x18).map (writtenByte off w v s) ++ halfBytes (portWrite off w v s).flg ++
        [0#8, 0#8, writtenByte off w v s 0x1C, writtenByte off w v s 0x1D, writtenByte off w v s 0x1E, 0#8] := by
  have hhalf : ∀ b0 b1 : Byte, halfBytes (b1 ++ b0) = [b0, b1] := halfBytes_append
  have hword : ∀ b0 b1 b2 b3 : Byte, wordBytes (b3 ++ b2 ++ b1 ++ b0) = [b0, b1, b2, b3] := wordBytes_append
  have hpc : ∀ b0 b1 b2 b3 : Byte, wordBytes (addrWord (lowAddr (b3 ++ b2 ++ b1 ++ b0))) = [b0, b1, b2, 0#8] := by
    intro b0 b1 b2 b3
    have h := hword b0 b1 b2 b3
    simp only [wordBytes, List.cons.injEq, and_true] at h
    obtain ⟨h0, h1, h2, -⟩ := h
    rw [wordBytes_addrWord_lowAddr, h0, h1, h2]
  generalize hf : (portWrite off w v s).flg = f
  simp only [registerBytes, hf]
  simp only [portWrite, hhalf, hword, hpc]
  rfl

/-- FLG after a write that touches it, and after one that does not. -/
theorem portWrite_flg (off : Nat) (w : Width) (v : Val) (s : State) :
    (portWrite off w v s).flg =
      if touches off w.bytes 0x18 2 then flagsLoad (writtenByte off w v s 0x19 ++ writtenByte off w v s 0x18) else s.flg :=
  rfl

/-- FlagsLoad byte by byte. -/
theorem flagsLoad_append (hi lo : Byte) : flagsLoad (hi ++ lo) = (hi &&& 0x07#8) ++ (lo &&& 0x1F#8) :=
  BitVec.and_append (x₁ := hi) (x₂ := 0x07#8) (y₁ := lo) (y₂ := 0x1F#8)

/-- The two bytes of FLG after a write, its hard-wired bits being 0 before: those of `IMG'` under the mask. -/
theorem halfBytes_portWrite_flg {s : State} (h : FlgOk s.flg) (off : Nat) (w : Width) (v : Val) :
    halfBytes (portWrite off w v s).flg = [writtenByte off w v s 0x18 &&& 0x1F#8, writtenByte off w v s 0x19 &&& 0x07#8] := by
  by_cases ht : touches off w.bytes 0x18 2 = true
  · rw [portWrite_flg, if_pos ht, flagsLoad_append, halfBytes_append]
  · have hout : ∀ k, k = 0x18 ∨ k = 0x19 → ¬ (off ≤ k ∧ k < off + w.bytes) := by
      intro k hk hin
      simp only [touches, Bool.and_eq_true, decide_eq_true_iff] at ht
      omega
    have hlo : writtenByte off w v s 0x18 = s.flg.extractLsb' 0 8 := by
      rw [writtenByte, if_neg (hout 0x18 (.inl rfl)), portByte_of_register s (by decide)]
      rfl
    have hhi : writtenByte off w v s 0x19 = s.flg.extractLsb' 8 8 := by
      rw [writtenByte, if_neg (hout 0x19 (.inr rfl)), portByte_of_register s (by decide)]
      rfl
    rw [portWrite_flg, if_neg ht, hlo, hhi, ← halfBytes_append, ← flagsLoad_append, halves_append]
    exact congrArg halfBytes h.symm

/-- The places below STATUS where a write is under no mask: everything but FLG, the reserved half and the top of PC's item. -/
def Unmasked (k : Nat) : Prop := k < 0x18 ∨ 0x1C ≤ k ∧ k < 0x1F

theorem portByte_portWrite_of_unmasked (off : Nat) (w : Width) (v : Val) (s : State) {k : Nat} (hk : Unmasked k) :
    portByte (portWrite off w v s) k = writtenByte off w v s k := by
  have hlt : k < 0x20 := by
    rcases hk with hk | ⟨-, hk⟩ <;> omega
  rw [portByte_of_register _ hlt, registerBytes_portWrite]
  generalize (portWrite off w v s).flg = f
  generalize writtenByte off w v s = g
  rcases hk with hk | ⟨hk, hk'⟩
  · have hlen : k < ((List.range 0x18).map g).length := by simpa using hk
    rw [List.append_assoc, List.getD_append _ _ _ _ hlen, List.getD_eq_getElem _ _ hlen]
    simp
  · obtain rfl | rfl | rfl : k = 0x1C ∨ k = 0x1D ∨ k = 0x1E := by omega
    · rfl
    · rfl
    · rfl

theorem writeMask_of_unmasked {k : Nat} (hk : Unmasked k) : writeMask k = 0xFF := by
  rcases hk with hk | ⟨hk, hk'⟩
  · rw [writeMask, if_neg (by omega), if_neg (by omega), if_neg (by omega)]
  · rw [writeMask, if_neg (by omega), if_neg (by omega), if_neg (by omega)]

/-- The places below STATUS by what masks a write there. -/
theorem register_place_cases {k : Nat} (hk : k < 0x20) :
    Unmasked k ∨ k = 0x18 ∨ k = 0x19 ∨ k = 0x1A ∨ k = 0x1B ∨ k = 0x1F := by
  simp only [Unmasked]
  omega

theorem and_writeMask_of_unmasked (b : Byte) {k : Nat} (hk : Unmasked k) : b &&& BitVec.ofNat 8 (writeMask k) = b := by
  rw [writeMask_of_unmasked hk]
  exact BitVec.and_allOnes

/-- Every byte of a register item after a write: that of `IMG'` under its mask. -/
theorem portByte_portWrite {s : State} (h : FlgOk s.flg) (off : Nat) (w : Width) (v : Val) {k : Nat} (hk : k < 0x20) :
    portByte (portWrite off w v s) k = writtenByte off w v s k &&& BitVec.ofNat 8 (writeMask k) := by
  rcases register_place_cases hk with hplain | hmasked
  · rw [portByte_portWrite_of_unmasked off w v s hplain, and_writeMask_of_unmasked _ hplain]
  · rw [portByte_of_register _ hk, registerBytes_portWrite, halfBytes_portWrite_flg h]
    generalize writtenByte off w v s = g
    rcases hmasked with rfl | rfl | rfl | rfl | rfl
    · rfl
    · rfl
    · exact BitVec.and_zero.symm
    · exact BitVec.and_zero.symm
    · exact BitVec.and_zero.symm

/-- The bytes of a FLG whose hard-wired bits are 0 are under the mask already. -/
theorem flgOk_bytes {flg : BitVec 16} (h : FlgOk flg) :
    flg.extractLsb' 0 8 &&& 0x1F#8 = flg.extractLsb' 0 8 ∧ flg.extractLsb' 8 8 &&& 0x07#8 = flg.extractLsb' 8 8 := by
  have hbytes : halfBytes flg = [flg.extractLsb' 0 8 &&& 0x1F#8, flg.extractLsb' 8 8 &&& 0x07#8] := by
    rw [← halfBytes_append, ← flagsLoad_append, halves_append]
    exact congrArg halfBytes h.symm
  simp only [halfBytes, List.cons.injEq, and_true] at hbytes
  exact ⟨hbytes.1.symm, hbytes.2.symm⟩

theorem addrWord_top (a : Addr) : (addrWord a).extractLsb' 24 8 = 0#8 := by
  ext i hi
  simp [addrWord]

/-- What a register item holds is under the mask already. -/
theorem portByte_and_writeMask {s : State} (h : FlgOk s.flg) {k : Nat} (hk : k < 0x20) :
    portByte s k &&& BitVec.ofNat 8 (writeMask k) = portByte s k := by
  rcases register_place_cases hk with hplain | hmasked
  · exact and_writeMask_of_unmasked _ hplain
  · obtain ⟨hlo, hhi⟩ := flgOk_bytes h
    rw [portByte_of_register _ hk]
    rcases hmasked with rfl | rfl | rfl | rfl | rfl
    · exact hlo
    · exact hhi
    · exact BitVec.and_zero.trans (show 0#8 = (0#16).extractLsb' 0 8 from rfl)
    · exact BitVec.and_zero.trans (show 0#8 = (0#16).extractLsb' 8 8 from rfl)
    · exact BitVec.and_zero.trans (addrWord_top s.pc).symm

theorem toNat_and_writeMask (b : Byte) (k : Nat) : (b &&& BitVec.ofNat 8 (writeMask k)).toNat = b.toNat &&& writeMask k := by
  have hlt : writeMask k < 2 ^ 8 := by
    rw [writeMask]
    split_ifs <;> decide
  rw [BitVec.toNat_and, BitVec.toNat_ofNat, Nat.mod_eq_of_lt hlt]

/-- What a write leaves in each byte of the register items (R422). -/
theorem imageByte_portWrite {s : State} (h : FlgOk s.flg) (off : Nat) (w : Width) (v : Val) {k : Nat} (hk : k < 0x20) :
    imageByte (portWrite off w v s) k =
      if off ≤ k ∧ k < off + w.bytes then byteOf v.toNat (k - off) &&& writeMask k else imageByte s k := by
  rw [← portByte_toNat, portByte_portWrite h off w v hk, toNat_and_writeMask, writtenByte_toNat]
  split
  · rfl
  · rw [← portByte_toNat, ← toNat_and_writeMask, portByte_and_writeMask h hk]

/-- What is written to the general registers is read back. -/
theorem portRead_portWrite {off : Nat} {w : Width} (v : Val) (s : State) (hoff : off + w.bytes ≤ 0x10) :
    (portRead off w (portWrite off w v s)).1.toNat = v.toNat % 2 ^ w.bits := by
  rw [portRead_toNat, ← sum_bytes, imageValue]
  refine congrArg List.sum (List.map_congr_left fun k hk => ?_)
  have hlt := List.mem_range.1 hk
  have hplain : Unmasked (off + k) := .inl (by omega)
  rw [imageByte_portNote _ _ _ (by omega), ← portByte_toNat, portByte_portWrite_of_unmasked off w v s hplain,
    writtenByte_toNat, if_pos (by omega), Nat.add_sub_cancel_left]

/-! ## The control items at their conforming places -/

/-- A word of the image below STATUS. -/
theorem portRead_long (s : State) {off : Nat} (hoff : off + 3 < 0x20) :
    (portRead off .long s).1 =
      (registerBytes s).getD (off + 3) 0#8 ++ (registerBytes s).getD (off + 2) 0#8 ++ (registerBytes s).getD (off + 1) 0#8 ++
        (registerBytes s).getD off 0#8 := by
  rw [portRead, portByte_of_register _ hoff, portByte_of_register _ (k := off + 2) (by omega),
    portByte_of_register _ (k := off + 1) (by omega), portByte_of_register _ (k := off) (by omega)]
  rfl

/-- A half-word of the image below STATUS. -/
theorem portRead_word (s : State) {off : Nat} (hoff : off + 1 < 0x20) :
    (portRead off .word s).1 =
      ((registerBytes s).getD (off + 1) 0#8 ++ (registerBytes s).getD off 0#8).setWidth 32 := by
  rw [portRead, portByte_of_register _ hoff, portByte_of_register _ (k := off) (by omega)]
  rfl

theorem portRead_sp (s : State) : (portRead 0x10 .long s).1 = s.sp := (portRead_long s (by decide)).trans (bytes_append s.sp)

theorem portRead_intb (s : State) : (portRead 0x14 .long s).1 = s.intb :=
  (portRead_long s (by decide)).trans (bytes_append s.intb)

theorem portRead_flg (s : State) : (portRead 0x18 .word s).1 = s.flg.setWidth 32 :=
  (portRead_word s (by decide)).trans (congrArg (BitVec.setWidth 32) (halves_append s.flg))

theorem portRead_pc (s : State) : (portRead 0x1C .long s).1 = addrWord s.pc :=
  (portRead_long s (by decide)).trans (bytes_append (addrWord s.pc))

theorem portRead_reserved (s : State) : (portRead 0x1A .word s).1 = 0#32 :=
  (portRead_word s (by decide)).trans (congrArg (BitVec.setWidth 32) (halves_append 0#16))

/-- FLG and the reserved half above it, read as a word. -/
theorem portRead_flg_long (s : State) : (portRead 0x18 .long s).1.toNat = s.flg.toNat := by
  have hbytes : (portRead 0x18 .long s).1 = 0#8 ++ 0#8 ++ s.flg.extractLsb' 8 8 ++ s.flg.extractLsb' 0 8 :=
    portRead_long s (by decide)
  rw [hbytes, BitVec.append_assoc, BitVec.toNat_cast, halves_append, toNat_append_eq_add]
  rfl

/-! ## The control items written at their conforming places -/

theorem portWrite_sp (v : Val) (s : State) : (portWrite 0x10 .long v s).sp = v := bytes_append v

theorem portWrite_intb (v : Val) (s : State) : (portWrite 0x14 .long v s).intb = v := bytes_append v

theorem portWrite_pc (v : Val) (s : State) : (portWrite 0x1C .long v s).pc = lowAddr v := congrArg lowAddr (bytes_append v)

theorem low_halves_append (v : Val) : v.extractLsb' 8 8 ++ v.extractLsb' 0 8 = v.setWidth 16 := by
  rw [BitVec.extractLsb'_append_extractLsb'_eq_extractLsb' (by rfl)]
  ext i hi
  simp

theorem portWrite_flg_word (v : Val) (s : State) : (portWrite 0x18 .word v s).flg = v.setWidth 16 &&& 0x071F#16 :=
  congrArg flagsLoad (low_halves_append v)

theorem portWrite_flg_long (v : Val) (s : State) : (portWrite 0x18 .long v s).flg = v.setWidth 16 &&& 0x071F#16 :=
  congrArg flagsLoad (low_halves_append v)

/-- The bits of a value that FLG keeps, as numbers. -/
theorem flg_toNat (v : Val) : (v.setWidth 16 &&& 0x071F#16).toNat = v.toNat % 2 ^ 16 &&& 0x071F := by
  rw [BitVec.toNat_and, BitVec.toNat_setWidth]
  rfl

/-- Settles O60. -/
theorem registerPort : Obligations.RegisterPort := by
  intro s off w v
  refine ⟨⟨_, rfl, portRead_toNat s off w, portNote_of_misaligned s, portNote_of_aligned s⟩,
    ⟨_, rfl, fun hflg k hk => imageByte_portWrite hflg off w v hk,
      fun h => by rw [portWrite_diagMcra, portNote_of_misaligned s h],
      fun h => by rw [portWrite_diagMcra, portNote_of_aligned s h], rfl, rfl, rfl, rfl, rfl, rfl, rfl, rfl, rfl,
      portRead_portWrite v s⟩,
    (portRead_sp _).trans (portWrite_sp v s), (portRead_intb _).trans (portWrite_intb v s), ?_, ?_, portRead_reserved _, ?_,
    portWrite_flg_word v s, portWrite_pc v s⟩
  · rw [portRead_flg, BitVec.toNat_setWidth_of_le (by decide), portWrite_flg_word, flg_toNat]
  · rw [portRead_flg_long, portWrite_flg_long, flg_toNat]
  · rw [portRead_pc, addrWord_toNat, portWrite_pc, lowAddr_toNat]

end Sys2Proof.Machine
end
